-- ==== Sys2Proof/Word.lean ====
section
/-! DEFINITION. The two word types of the block: the 32-bit host word and the 8-bit bus byte (spec/00_scope.md R6). -/

namespace Sys2Proof

/-- A 32-bit word of the host port (R6 "host register width", R62). -/
abbrev Word := BitVec 32

/-- An 8-bit byte of the two-wire bus (R6 "bus data unit"). -/
abbrev Byte := BitVec 8

end Sys2Proof
end

