-- ==== Sys2Proof/Syntax.lean ====
section
/-! DEFINITION. The block's commands: one constructor per row of spec/opcode_table.json. -/

namespace Sys2Proof

/-- The eleven commands of the opcode map (spec/30_encoding.md R93). "A command word carries no operand fields and no
immediates" (R96), so no constructor takes an argument: every operand is read from a register of the block. -/
inductive Instr
  /-- WRREG 0x01: write one device register (R140). -/
  | wrreg
  /-- SELREG 0x02: set the device's register pointer (R142). -/
  | selreg
  /-- RDBYTE 0x03: receive one byte (R144). -/
  | rdbyte
  /-- RDBYTES 0x04: receive a burst (R146). -/
  | rdbytes
  /-- BUSSTOP 0x05: release a held bus (R148). -/
  | busstop
  /-- LDCALA 0x10: decode calibration block 1 (R172). -/
  | ldcala
  /-- LDCALB 0x11: decode calibration block 2 (R175). -/
  | ldcalb
  /-- LDRAWT 0x12: assemble the raw temperature (R178). -/
  | ldrawt
  /-- LDRAWH 0x13: assemble the raw humidity (R180). -/
  | ldrawh
  /-- COMPT 0x14: compensate the temperature (R191). -/
  | compt
  /-- COMPH 0x15: compensate the humidity (R196). -/
  | comph
  deriving DecidableEq, Repr

/-- The commands of the I2C master FSM: OPCODE[7:4] = 0x0 (R90, R93). -/
def Instr.isFsm : Instr → Bool
  | .wrreg | .selreg | .rdbyte | .rdbytes | .busstop => true
  | .ldcala | .ldcalb | .ldrawt | .ldrawh | .compt | .comph => false

end Sys2Proof
end

