-- ==== Sys2Proof/Config.lean ====
section
/-! DEFINITION. What is fixed for one machine and is not state (spec/10_state.md R20, last sentence): the parameters of
spec/00_scope.md R6, the OPEN parameters, and the free values. An `opaque` constant here has no body: no proof can see what it is. -/

namespace Sys2Proof

/-- BASE divided by 0x200. BASE is OPEN: the platform chooses it (R61, U19). Log entry 5. -/
opaque Config.baseIndex : Nat

/-- The byte address of the block's host window, "a multiple of 0x200" (R61). -/
def Config.base : Nat := 0x200 * Config.baseIndex

/-- The size of the host window in bytes (R6, R60). -/
def Config.windowBytes : Nat := 0x200

/-- RXDEPTH, the receive buffer's depth in bytes (R6). -/
def Config.rxDepth : Nat := 32

/-- The content of RXBUF[i] after the n-th reset: "each byte a free draw" (R41, R50, U6). Log entry 4. -/
opaque Config.rxbufDraw : Nat → Nat → Byte

/-- DELAY_SHORT, in milliseconds: OPEN (R227, U20). -/
opaque Config.delayShort : Nat

/-- DELAY_MEDIUM, in milliseconds: OPEN (R227, U20). -/
opaque Config.delayMedium : Nat

/-- DELAY_LONG, in milliseconds: OPEN (R227, U20). -/
opaque Config.delayLong : Nat

/-- T_RESET_MS, the sensor's start-up time that a host may wait for after a soft reset: OPEN (R224, U21). -/
opaque Config.tResetMs : Nat

/-- The sensor's register addresses and constants, parameters of the host procedures with the defaults of R220. -/
structure SensorParams where
  sensAddr   : BitVec 7 := 0x76
  regId      : Byte := 0xD0
  chipId     : Byte := 0x60
  regReset   : Byte := 0xE0
  resetVal   : Byte := 0xB6
  regCtrlHum : Byte := 0xF2
  regCtrlMeas : Byte := 0xF4
  regConfig  : Byte := 0xF5
  regCal1    : Byte := 0x88
  regCal2    : Byte := 0xE1
  regTemp    : Byte := 0xFA
  regHum     : Byte := 0xFD
  configBase : Byte := 0x00
  modeForced : BitVec 2 := 0b01
  deriving DecidableEq, Repr

end Sys2Proof
end

