-- ==== Sys2Proof/WellFormed.lean ====
section
/-! DEFINITION. The checks on what comes from outside: a command word, a host access, the base address. Each is a Bool. -/

namespace Sys2Proof

/-- A command of the syntax is always well formed: it has no operand to check (R96), and no encoding is
"reserved-but-legal" (R95). The check that can fail is the one on the WORD, `wellFormedWord`. -/
def Instr.wf : Instr → Bool
  | .wrreg | .selreg | .rdbyte | .rdbytes | .busstop => true
  | .ldcala | .ldcalb | .ldrawt | .ldrawh | .compt | .comph => true

/-- An OPCODE that R93's map has a row for. R94: every other one "is illegal. That is 0x00, 0x06 to 0x0F, and 0x16 to
0xFF". -/
def legalOpcode (op : Byte) : Bool :=
  (0x01 ≤ op.toNat && op.toNat ≤ 0x05) || (0x10 ≤ op.toNat && op.toNat ≤ 0x15)

/-- A CMD32 word whose OPCODE is legal; "Bits [31:8] are ignored" (R90, R91). -/
def wellFormedWord (v : Word) : Bool := legalOpcode (v.extractLsb' 0 8)

/-- A host access takes 4 bytes (R64: "only 32-bit accesses"). -/
def accessSizeOk (bytes : Nat) : Bool := bytes == 4

/-- A host access is at a 4-byte-aligned offset (R64: "off mod 4 = 0"). -/
def accessAlignedOk (off : Int) : Bool := off % 4 == 0

/-- A host access lies inside the window (R64: "off < 0x200"). -/
def accessInWindow (off : Int) : Bool := decide (0 ≤ off) && decide (off < Config.windowBytes)

/-- The accesses R64 admits: `MemRead(BASE + off, 4)` and `MemWrite(BASE + off, 4, v)`. -/
def wellFormedAccess (off : Int) (bytes : Nat) : Bool :=
  accessSizeOk bytes && accessAlignedOk off && accessInWindow off

/-- BASE "must be a multiple of 0x200" (R61). -/
def wellFormedBase (base : Nat) : Bool := base % Config.windowBytes == 0

end Sys2Proof
end

