-- ==== Sys2Proof/Decode.lean ====
section
/-! DEFINITION. The decoder of command words, total on all of them, and the encoder (spec/30_encoding.md R90 to R98). -/

namespace Sys2Proof

/-- Why a word is no command. -/
inductive DecodeError
  /-- The OPCODE has no row in R93's map (R94). The machine does not stop on it: it takes R94's illegal-opcode path. -/
  | illegalOpcode (op : Byte)
  deriving DecidableEq, Repr

/-- OPCODE: bits [7:0] of a CMD32 word (R90). -/
def opcodeField (v : Word) : Byte := v.extractLsb' 0 8

/-- One row of the opcode map: "Each row's bit pattern is `xxxxxxxx xxxxxxxx xxxxxxxx` followed by the 8 OPCODE bits,
with mask 0x000000FF" (R93). -/
structure OpcodeRow where
  mask  : Word
  bits  : Word
  instr : Instr
  deriving DecidableEq, Repr

/-- The opcode map (R93, spec/opcode_table.json), row by row. -/
def opcodeTable : List OpcodeRow :=
  [⟨0x000000FF, 0x00000001, .wrreg⟩,
   ⟨0x000000FF, 0x00000002, .selreg⟩,
   ⟨0x000000FF, 0x00000003, .rdbyte⟩,
   ⟨0x000000FF, 0x00000004, .rdbytes⟩,
   ⟨0x000000FF, 0x00000005, .busstop⟩,
   ⟨0x000000FF, 0x00000010, .ldcala⟩,
   ⟨0x000000FF, 0x00000011, .ldcalb⟩,
   ⟨0x000000FF, 0x00000012, .ldrawt⟩,
   ⟨0x000000FF, 0x00000013, .ldrawh⟩,
   ⟨0x000000FF, 0x00000014, .compt⟩,
   ⟨0x000000FF, 0x00000015, .comph⟩]

/-- A row's test: "A CMD32 word `v` uses only `v[7:0]`" (R91). -/
def OpcodeRow.hits (r : OpcodeRow) (v : Word) : Bool := v &&& r.mask == r.bits

/-- The decoder: one 32-bit word to a command, or the illegal opcode by its value (R93, R94, R98). -/
def decode (v : Word) : Except DecodeError Instr :=
  match opcodeTable.find? (·.hits v) with
  | some r => .ok r.instr
  | none => .error (.illegalOpcode (opcodeField v))

/-- The command whose OPCODE is op (the FSM's CUR and LASTCMD hold an OPCODE alone: R28, R29). -/
def decodeOpcode (op : Byte) : Except DecodeError Instr := decode (op.setWidth 32)

/-- UNIT, OPCODE[7:4]: 0x0 selects the FSM, 0x1 selects the ENG (R90). -/
def Instr.unit (i : Instr) : BitVec 4 := if i.isFsm then 0x0 else 0x1

/-- FUNC, OPCODE[3:0] (R93's OPCODE column). -/
def Instr.func : Instr → BitVec 4
  | .wrreg => 0x1
  | .selreg => 0x2
  | .rdbyte => 0x3
  | .rdbytes => 0x4
  | .busstop => 0x5
  | .ldcala => 0x0
  | .ldcalb => 0x1
  | .ldrawt => 0x2
  | .ldrawh => 0x3
  | .compt => 0x4
  | .comph => 0x5

/-- OPCODE = UNIT and FUNC side by side (R90). -/
def Instr.opcode (i : Instr) : Byte := i.unit ++ i.func

/-- The encoder: the CMD32 word of i whose ignored bits [31:8] are `ignored` (R90: "Bits [31:8] are ignored"). -/
def encodeWith (ignored : BitVec 24) (i : Instr) : Word := ignored ++ i.opcode

/-- The word `CMD m` writes (R100): the OPCODE, with zeros above it. -/
def encode (i : Instr) : Word := encodeWith 0 i

/-- The instruction the decoder reads from a word of the opcode table: the low nbits bits of w, zeros above them. The
block's only format is one 32-bit word (R98), taken whole across the host port (R65: no byte order is observable). -/
def decodeTableWord (nbits w : Nat) : Option Instr :=
  match decode (BitVec.ofNat 32 (w % 2 ^ nbits)) with
  | .ok i => some i
  | .error _ => none

end Sys2Proof
end

