-- ==== Sys2Proof/Machine/State.lean ====
section
/-! DEFINITION. The machine's state as plain data (spec/10_state.md R20 to R50), the reasons a step can stop, and reset.
STATUS.BUSY is not stored: it is 1 exactly when PHASE ≠ IDLE or ENG_PENDING = 1 (R33), and Machine/Ops.lean computes it. -/

namespace Sys2Proof.Machine

/-- PHASE of the FSM (R29). -/
inductive Phase
  | idle
  | issue
  | wait
  deriving DecidableEq, Repr

/-- The result codes of STATUS.CODE that some command writes (R251). Codes 7 and 11 to 14 are "reserved, never
written", so they have no constructor. The numbers are in Machine/Flags.lean. -/
inductive StatusCode
  | ok
  | errStart
  | errAddrW
  | errAddrR
  | errDataW
  | errDataR
  | errCount
  | errNoRx
  | errNoCal
  | errTfine
  | errIllegal
  deriving DecidableEq, Repr

/-- A bus action of the FSM (R110, R97). -/
inductive BusAction
  | start
  | send (b : Byte)
  | recv (ack : Bool)
  | stop
  deriving DecidableEq, Repr

/-- The check of one step: its expected set E with its failure code F (R112), or none for the STOP step, which "cannot
fail" (R117). -/
inductive Check
  | oneOf (codes : List Byte) (fail : StatusCode)
  | always
  deriving DecidableEq, Repr

/-- "Every step of SEQ is a record (action, expected set E, failure code F)" (spec/40_bus_steps.md section 2). -/
structure SeqStep where
  action : BusAction
  check  : Check
  deriving DecidableEq, Repr

/-- The BE's answer to an issued action: COND and RXB (R97). -/
structure BeAnswer where
  cond : Byte
  rxb  : Byte
  deriving DecidableEq, Repr

/-- The calibration set, each field at its own width (R42, R43). The host port shows it extended to 32 bits. -/
structure Calibration where
  t1 : BitVec 16
  t2 : BitVec 16
  t3 : BitVec 16
  p1 : BitVec 16
  p2 : BitVec 16
  p3 : BitVec 16
  p4 : BitVec 16
  p5 : BitVec 16
  p6 : BitVec 16
  p7 : BitVec 16
  p8 : BitVec 16
  p9 : BitVec 16
  h1 : BitVec 8
  h2 : BitVec 16
  h3 : BitVec 8
  h4 : BitVec 12
  h5 : BitVec 12
  h6 : BitVec 8
  deriving DecidableEq, Repr

/-- The host status codes of the reference procedures (R221). They "live in host memory, not in the block". -/
inductive HostStatus
  | ok
  | idRegErr
  | idReadErr
  | initSucc
  | idMismatch
  | resetErr
  | configErr
  | ovsErr
  | cal1Err
  | cal2Err
  | rawErr
  deriving DecidableEq, Repr

/-- One operation of a host program, in the notation of R99. An offset is relative to BASE, a name is a number, and a
label is the distance to it in operations. -/
inductive HostOp
  /-- `W off, v`: MemWrite(BASE + off, bytes, v). The notation's own accesses have bytes = 4. -/
  | w (off : Int) (bytes : Nat) (v : Word)
  /-- `R off -> name`: name <- MemRead(BASE + off, bytes). -/
  | r (off : Int) (bytes : Nat) (name : Nat)
  /-- `BNE name[hi:lo], v, label`. -/
  | bne (name hi lo : Nat) (v : Nat) (distance : Int)
  /-- `BEQ name[hi:lo], v, label`. -/
  | beq (name hi lo : Nat) (v : Nat) (distance : Int)
  /-- The timing service's blocking sleep (R261, R227). -/
  | sleep (ms : Nat)
  /-- `status <- st`: the record also takes the block's CODE from the value of this name, a read of STATUS (R221). -/
  | setStatus (st : HostStatus) (codeFrom : Nat)
  /-- `identity <- name` (R222). -/
  | setIdentity (name : Nat)
  /-- `if status = st: go to label` on the host's own status record, which procedures read as `if status ≠ OK: return` (R230). -/
  | beqStatus (st : HostStatus) (distance : Int)
  /-- A procedure's use by its caller (R230, R232): its operations are the `length` next ones, and the operation after them is where
  its return goes. -/
  | call (length : Nat)
  /-- `return` of a procedure: "the core simply always returns rather than aborting the process" (R233). -/
  | ret
  /-- The end of a program, or the stop of CHECK (R100). -/
  | done
  deriving DecidableEq, Repr

/-- The HOST: "the single microcontroller core" (R3). Its program, the place in it, the places the procedures it is in
return to (innermost first), the values it has read by name, and its status record (R221). Not state of the block. -/
structure HostAgent where
  prog      : List HostOp
  pc        : Nat
  returns   : List Nat
  vars      : List (Nat × Word)
  status    : Option HostStatus
  blockCode : BitVec 4
  identity  : Option Byte
  deriving DecidableEq, Repr

/-- Which agent moves next, with what comes from outside the block (R3, R112, R255, R280). -/
inductive Move
  /-- The HOST performs its program's next operation. -/
  | host
  /-- The FSM issues SEQ[K] (R111). -/
  | fsm
  /-- The BE answers the issued action with this condition code and byte (R112). -/
  | be (cond rxb : Byte)
  /-- The ENG completes its pending command (R170). -/
  | eng
  /-- The reset input is asserted and released (R280). -/
  | reset
  deriving DecidableEq, Repr

/-- The reasons the machine stops. The block itself "raises no trap, no exception and no interrupt" (R250): both faults
stand for states R29 and R33 exclude, and Safety.lean's invariant rules them out. -/
inductive Fault
  /-- Raised by the FSM's issue and answer steps when PHASE ≠ IDLE and SEQ has no step K. The spec gives no step there
  (R29: at K = length(SEQ) the transaction is over). Safe: the model stops. -/
  | noStepAtK
  /-- Raised by a unit's move when the unit is busy and CUR (or LASTCMD) is no command of that unit. The spec excludes
  it (R29, R92). Safe: the model stops. -/
  | noCommandInProgress
  deriving DecidableEq, Repr

/-- The reasons the model has no step. -/
inductive Refusal
  /-- Raised by an arm of exec whose instruction has no meaning yet. No arm is. Safe. -/
  | notModelled (mnemonic : String)
  /-- Raised by a host access that is not 4 bytes wide: "Byte, halfword and misaligned accesses are not defined. The
  model refuses them" (R64, U10). Safe. -/
  | hostAccessSize (bytes : Nat)
  /-- Raised by a host access at an offset that is no multiple of 4 (R64, U10). Safe. -/
  | hostAccessMisaligned (off : Int)
  /-- Raised by a host access outside the window (R64, U10). Safe. -/
  | hostAccessOutsideWindow (off : Int)
  /-- Raised by a branch of a host program, or by its status or identity record, on a name no R has written: R99 gives
  only branches "on a value previously read". Safe. -/
  | hostNameUnread (name : Nat)
  deriving DecidableEq, Repr

/-- Everything the spec gives the machine: the block (R20), and after it the agents around it (the model's own fields). -/
structure State where
  -- operand registers (R21 to R27), each holding its defined bits only
  dev     : BitVec 7
  regidx  : Byte
  wdata   : Byte
  count   : Byte
  selhold : Bool
  rawt    : BitVec 20
  rawh    : BitVec 16
  -- the command latch (R28)
  lastCmd : Byte
  -- STATUS (R31), less BUSY
  code : StatusCode
  held : Bool
  ovr  : Bool
  tclo : Bool
  tchi : Bool
  hclo : Bool
  hchi : Bool
  cala : Bool
  calb : Bool
  tfv  : Bool
  -- receive length and buffer (R40, R41)
  rxlen : Byte
  rxbuf : Vector Byte 32
  -- results (R37 to R39)
  temp  : Word
  tfine : Word
  hum   : Word
  -- the calibration set (R42 to R45)
  cal : Calibration
  -- the FSM's internal state (R29, R30)
  phase : Phase
  k     : Nat
  seq   : List SeqStep
  cur   : Byte
  -- the ENG's internal bit (R47)
  engPending : Bool
  -- the model's own: the BE port within an answer step, the actions presented to the BE (newest first), the moves to
  -- come, the HOST, and how often the block has been reset since the first reset
  beAnswer : Option BeAnswer
  busLog   : List BusAction
  moves    : List Move
  host     : HostAgent
  resets   : Nat
  deriving DecidableEq, Repr

/-- The calibration set after reset: "every CAL_ register | 0" (R50). -/
def Calibration.zero : Calibration :=
  ⟨0, 0, 0, 0, 0, 0, 0, 0, 0, 0, 0, 0, 0, 0, 0, 0, 0, 0⟩

/-- A host with no program. The spec gives the HOST no reset state (log entry 2). -/
def HostAgent.empty : HostAgent := ⟨[], 0, [], [], none, 0, none⟩

/-- RXBUF after the n-th reset: 32 free draws (R41, R50). -/
def drawRxbuf (n : Nat) : Vector Byte 32 :=
  ⟨((List.range 32).map (Config.rxbufDraw n)).toArray, by simp⟩

/-- The machine right after reset: R50's table. The environment has presented nothing and plans nothing. -/
def State.reset : State where
  dev := 0
  regidx := 0
  wdata := 0
  count := 0
  selhold := false
  rawt := 0
  rawh := 0
  lastCmd := 0x00
  code := .ok
  held := false
  ovr := false
  tclo := false
  tchi := false
  hclo := false
  hchi := false
  cala := false
  calb := false
  tfv := false
  rxlen := 0
  rxbuf := drawRxbuf 0
  temp := 0
  tfine := 0
  hum := 0
  cal := Calibration.zero
  phase := .idle
  k := 0
  seq := []
  cur := 0x00
  engPending := false
  beAnswer := none
  busLog := []
  moves := []
  host := HostAgent.empty
  resets := 0

end Sys2Proof.Machine
end

