-- ==== Sys2Proof/Machine/Operands.lean ====
section
/-! DEFINITION. The engine's operand forms and its s32 arithmetic (spec/00_scope.md R8 to R10, spec/43_compensation.md R190),
and the assembly of fields from received bytes (spec/42_operand_loads.md). -/

namespace Sys2Proof.Machine

/-- `wrap32(x)`: the s32 congruent to x modulo 2^32 (R9). -/
def wrap32 (x : Int) : Word := BitVec.ofInt 32 x

/-- `a + b`: wrap32 of the exact result (R10). -/
def add32 (a b : Word) : Word := wrap32 (a.toInt + b.toInt)

/-- `a - b`: wrap32 of the exact result (R10). -/
def sub32 (a b : Word) : Word := wrap32 (a.toInt - b.toInt)

/-- `a * b`: wrap32 of the exact result (R10). -/
def mul32 (a b : Word) : Word := wrap32 (a.toInt * b.toInt)

/-- `a << n` is `wrap32(a * 2^n)` (R10). -/
def shl32 (a : Word) (n : Nat) : Word := wrap32 (a.toInt * 2 ^ n)

/-- `a >> n`, "the arithmetic right shift, `floor(a / 2^n)`" (R10). Int's division by a positive number is the floor. -/
def asr32 (a : Word) (n : Nat) : Word := wrap32 (a.toInt / 2 ^ n)

/-- `clamp(lo, hi, v)`, compared as signed numbers (R10). -/
def clamp32 (lo hi : Int) (v : Word) : Word :=
  if v.toInt < lo then wrap32 lo else if hi < v.toInt then wrap32 hi else v

/-- `zext_N(v)` as an s32 (R9). -/
def zext {n : Nat} (v : BitVec n) : Word := v.setWidth 32

/-- `sext_N(v)` as an s32 (R9). -/
def sext {n : Nat} (v : BitVec n) : Word := v.signExtend 32

/-- `b[i]` = RXBUF[i] (R172). -/
def rxByte (s : State) (i : Fin 32) : Byte := s.rxbuf[i]

/-- A "little-endian 16-bit pair": `{b[i+1], b[i]}` (R65, R172). -/
def rxPair (s : State) (hi lo : Fin 32) : BitVec 16 := rxByte s hi ++ rxByte s lo

/-- `v[3:0]` and `v[7:4]` of a byte (R8). -/
def lowNibble (b : Byte) : BitVec 4 := b.extractLsb' 0 4

/-- `v[7:4]` of a byte (R8). -/
def highNibble (b : Byte) : BitVec 4 := b.extractLsb' 4 4

/-- The calibration set after decoding block 1 (R172): T1 to P9 and H1 from RXBUF, the rest as it was. -/
def decodeBlock1 (s : State) : Calibration :=
  { s.cal with
    t1 := rxPair s 1 0
    t2 := rxPair s 3 2
    t3 := rxPair s 5 4
    p1 := rxPair s 7 6
    p2 := rxPair s 9 8
    p3 := rxPair s 11 10
    p4 := rxPair s 13 12
    p5 := rxPair s 15 14
    p6 := rxPair s 17 16
    p7 := rxPair s 19 18
    p8 := rxPair s 21 20
    p9 := rxPair s 23 22
    h1 := rxByte s 25 }

/-- The calibration set after decoding block 2 (R175): H2 to H6 from RXBUF, the rest as it was. H4 and H5 share b[4]. -/
def decodeBlock2 (s : State) : Calibration :=
  { s.cal with
    h2 := rxPair s 1 0
    h3 := rxByte s 2
    h4 := rxByte s 3 ++ lowNibble (rxByte s 4)
    h5 := rxByte s 5 ++ highNibble (rxByte s 4)
    h6 := rxByte s 6 }

/-- The 20-bit raw temperature `{b[0], b[1], b[2][7:4]}` (R178). -/
def rawTemperature (s : State) : BitVec 20 := rxByte s 0 ++ rxByte s 1 ++ highNibble (rxByte s 2)

/-- The 16-bit raw humidity `(b[0] << 8) | b[1]` (R180). -/
def rawHumidity (s : State) : BitVec 16 := rxByte s 0 ++ rxByte s 1

/-- var1 of the temperature compensation (R191). -/
def tempVar1 (adc t1 t2 : Word) : Word := asr32 (mul32 (sub32 (asr32 adc 3) (shl32 t1 1)) t2) 11

/-- d of the temperature compensation (R191). -/
def tempD (adc t1 : Word) : Word := sub32 (asr32 adc 4) t1

/-- var2 of the temperature compensation (R191). -/
def tempVar2 (adc t1 t3 : Word) : Word :=
  asr32 (mul32 (asr32 (mul32 (tempD adc t1) (tempD adc t1)) 12) t3) 14

/-- fine, the thermal fine value: var1 + var2 (R191), a function of RAWT and CAL_T1 to CAL_T3 (R199). -/
@[irreducible] def thermalFine (rawt : BitVec 20) (cal : Calibration) : Word :=
  add32 (tempVar1 (zext rawt) (zext cal.t1) (sext cal.t2)) (tempVar2 (zext rawt) (zext cal.t1) (sext cal.t3))

/-- t, the centidegrees before the clamp: `(fine * 5 + 128) >> 8` (R191). -/
@[irreducible] def centiDegrees (fine : Word) : Word := asr32 (add32 (mul32 fine 5) 128) 8

/-- x of the humidity compensation, for v = TFINE - 76800 (R196). -/
def humX (adc h4 h5 v : Word) : Word :=
  asr32 (add32 (sub32 (sub32 (shl32 adc 14) (shl32 h4 20)) (mul32 h5 v)) 16384) 15

/-- y of the humidity compensation, for v = TFINE - 76800 (R196). -/
def humY (h2 h3 h6 v : Word) : Word :=
  asr32
    (add32
      (mul32
        (add32
          (asr32 (mul32 (asr32 (mul32 v h6) 10) (add32 (asr32 (mul32 v h3) 11) 32768)) 10)
          2097152)
        h2)
      8192)
    14

/-- The H1 correction, the last line that writes v (R196): `v - (((((v >> 15) * (v >> 15)) >> 7) * H1) >> 4)`. -/
def humCorrect (v h1 : Word) : Word :=
  sub32 v (asr32 (mul32 (asr32 (mul32 (asr32 v 15) (asr32 v 15)) 7) h1) 4)

/-- v before the clamp (R196), a function of RAWH, TFINE and CAL_H1 to CAL_H6 (R199). -/
@[irreducible] def humPreClamp (rawh : BitVec 16) (tfine : Word) (cal : Calibration) : Word :=
  let v := sub32 tfine 76800
  let x := humX (zext rawh) (sext cal.h4) (sext cal.h5) v
  let y := humY (sext cal.h2) (zext cal.h3) (sext cal.h6) v
  humCorrect (mul32 x y) (zext cal.h1)

end Sys2Proof.Machine
end

