-- ==== Sys2Proof/Machine/Flags.lean ====
section
/-! DEFINITION. The numbers of the status codes (spec/60_exceptions.md R251), the clamps and their flags
(spec/43_compensation.md R191, R196), and the STATUS word (spec/10_state.md R31). -/

namespace Sys2Proof.Machine

/-- The STATUS.CODE values (R251). -/
def StatusCode.bits : StatusCode → BitVec 4
  | .ok => 0
  | .errStart => 1
  | .errAddrW => 2
  | .errAddrR => 3
  | .errDataW => 4
  | .errDataR => 5
  | .errCount => 6
  | .errNoRx => 8
  | .errNoCal => 9
  | .errTfine => 10
  | .errIllegal => 15

/-- The temperature clamp's bounds, in hundredths of a degree (R7, R191). -/
def tempLo : Int := -4000

/-- The upper bound of the temperature clamp (R7, R191). -/
def tempHi : Int := 8500

/-- The humidity clamp's bounds before the shift by 12 (R7, R196). -/
def humLo : Int := 0

/-- The upper bound of the humidity clamp (R7, R196). -/
def humHi : Int := 419430400

/-- TEMP of a thermal fine value: the clamp of t (R191). -/
@[irreducible] def compensatedTemp (fine : Word) : Word := clamp32 tempLo tempHi (centiDegrees fine)

/-- HUM of a value before the clamp: `p >> 12` (R196). -/
@[irreducible] def compensatedHum (v : Word) : Word := asr32 (clamp32 humLo humHi v) 12

/-- A clamp-low flag: `v < lo`, signed (R191, R196). A value equal to the bound is no clamp. -/
@[irreducible] def clampedLow (lo : Int) (v : Word) : Bool := decide (v.toInt < lo)

/-- A clamp-high flag: `v > hi`, signed (R191, R196). -/
@[irreducible] def clampedHigh (hi : Int) (v : Word) : Bool := decide (hi < v.toInt)

/-- STATUS.BUSY: "1 exactly when PHASE ≠ IDLE or ENG_PENDING = 1" (R33). -/
def State.busy (s : State) : Bool := s.phase != .idle || s.engPending

/-- One bit of a register view. -/
def bit1 (b : Bool) : BitVec 1 := if b then 1 else 0

/-- The STATUS word (R31), from bit 31 down: the reserved bits read 0. -/
def statusWord (s : State) : Word :=
  (0 : BitVec 13) ++ bit1 s.tfv ++ bit1 s.calb ++ bit1 s.cala
    ++ bit1 s.hchi ++ bit1 s.hclo ++ bit1 s.tchi ++ bit1 s.tclo
    ++ (0 : BitVec 1) ++ bit1 s.ovr ++ bit1 s.held ++ bit1 s.busy
    ++ (0 : BitVec 4) ++ s.code.bits

end Sys2Proof.Machine
end

