-- ==== Sys2Proof/Machine/Ops.lean ====
section
/-! DEFINITION. The operations the commands share: the two ends of a command (`finish`), the acceptance of a command, a write
that is ignored, the illegal-opcode path, and reset. The block has no exception: a failure IS `finish` with a nonzero code, and
there is no return from it (spec/60_exceptions.md R250, R256, R257). -/

namespace Sys2Proof.Machine

/-- The three outcomes of a step of this machine. -/
abbrev Result := Host.Outcome State Fault Refusal

/-- `finish(code)` of an I2C command: STATUS.CODE <- code, PHASE <- IDLE, K <- 0, and so STATUS.BUSY <- 0 (R118, R119). This is
also how a failure is taken (R256): nothing is saved and no mode changes. SEQ and CUR keep their values (log entry 8). -/
def finishFsm (c : StatusCode) (s : State) : State :=
  { s with code := c, phase := .idle, k := 0 }

/-- `finish(code)` of an engine command: STATUS.CODE <- code, ENG_PENDING <- 0, and so STATUS.BUSY <- 0 (R170). -/
def finishEng (c : StatusCode) (s : State) : State :=
  { s with code := c, engPending := false }

/-- A host write that is ignored because BUSY = 1 "changes nothing except that STATUS.OVR <- 1" (R67). -/
def ignoredWrite (s : State) : State := { s with ovr := true }

/-- What every accepted CMD write does first: LASTCMD <- op; STATUS.OVR <- 0 (R92). -/
def latchCommand (op : Byte) (s : State) : State := { s with lastCmd := op, ovr := false }

/-- The acceptance of an I2C command whose transaction starts: CUR <- op; SEQ; PHASE <- ISSUE; K <- 0 (R92). -/
def startTransaction (op : Byte) (steps : List SeqStep) (s : State) : State :=
  { latchCommand op s with cur := op, seq := steps, phase := .issue, k := 0 }

/-- An I2C command that finishes at its acceptance, "same atomic step; no bus action" (R92, R146, R148). -/
def finishAtAcceptance (op : Byte) (c : StatusCode) (s : State) : State :=
  finishFsm c { latchCommand op s with cur := op }

/-- The acceptance of an engine command: ENG_PENDING <- 1 (R92). -/
def acceptEng (op : Byte) (s : State) : State := { latchCommand op s with engPending := true }

/-- An illegal opcode, when accepted, "does only these things": LASTCMD <- op; STATUS.OVR <- 0; STATUS.CODE <- 15 (R94). -/
def illegalOpcode (op : Byte) (s : State) : State := { latchCommand op s with code := .errIllegal }

/-- The FSM runs the I2C command of this OPCODE (R29: CUR). -/
def fsmRuns (op : Byte) (s : State) : Bool := s.phase != .idle && s.cur == op

/-- The ENG has the engine command of this OPCODE pending. LASTCMD names it: no command is accepted while BUSY = 1 (R28, R67). -/
def engRuns (op : Byte) (s : State) : Bool := s.engPending && s.lastCmd == op

/-- A command's next atomic step (log entry 1). With the block idle it is the acceptance (R92). With this command in progress
it is the next step of its unit. With another command in progress the command is turned away (R67, R70). -/
def commandStep (running : Bool) (accept : State → State) (advance : State → Result) (s : State) : Result :=
  if s.busy then
    if running then advance s else .next (ignoredWrite s)
  else .next (accept s)

/-- The reset input: every piece of the block's state takes R50's value, RXBUF is drawn anew, and an unfinished command is lost
(R280, R281, R282). The agents around the block are not reset. -/
def resetBlock (s : State) : State :=
  { State.reset with
    rxbuf := drawRxbuf (s.resets + 1)
    resets := s.resets + 1
    busLog := s.busLog
    moves := s.moves
    host := s.host }

end Sys2Proof.Machine
end

