-- ==== Sys2Proof/Machine/Loads.lean ====
section
/-! DEFINITION. The engine's command frame (spec/42_operand_loads.md R170, R171) and its four operand loads (R172 to R181). -/

namespace Sys2Proof.Machine

/-- An engine command: its acceptance (ENG_PENDING <- 1), or its one completion step (R92, R170). -/
def engCommand (op : Byte) (complete : State → State) (s : State) : Result :=
  commandStep (engRuns op s) (acceptEng op) (fun s => .next (complete s)) s

/-- One check of R171: where it fails, the command ends with its code and "writes nothing but STATUS.CODE, BUSY and
ENG_PENDING". -/
def engCheck (holds : Bool) (c : StatusCode) (rest : State → State) (s : State) : State :=
  if holds then rest s else finishEng c s

/-- RXLEN is at least n (R171's first check). -/
def received (n : Nat) (s : State) : Bool := decide (n ≤ s.rxlen.toNat)

/-- The calibration set is complete: CALA = 1 and CALB = 1 (R45, R171's second check). -/
def calibrated (s : State) : Bool := s.cala && s.calb

/-- LDCALA past its check: block 1 decoded; CALA <- 1; CALB <- 0; TFV <- 0; finish(0) (R172). -/
def loadBlock1 (s : State) : State :=
  finishEng .ok { s with cal := decodeBlock1 s, cala := true, calb := false, tfv := false }

/-- LDCALA's completion step (R172). -/
def completeLdcala (s : State) : State := engCheck (received 26 s) .errNoRx loadBlock1 s

/-- LDCALA (R172). -/
def execLdcala (s : State) : Result := engCommand 0x10 completeLdcala s

/-- LDCALB past its checks: block 2 decoded; CALB <- 1; TFV <- 0; finish(0) (R175). -/
def loadBlock2 (s : State) : State :=
  finishEng .ok { s with cal := decodeBlock2 s, calb := true, tfv := false }

/-- LDCALB's completion step: RXLEN is checked before CALA (R171, R175). -/
def completeLdcalb (s : State) : State :=
  engCheck (received 8 s) .errNoRx (fun s => engCheck s.cala .errNoCal loadBlock2 s) s

/-- LDCALB (R175). -/
def execLdcalb (s : State) : Result := engCommand 0x11 completeLdcalb s

/-- LDRAWT past its check: RAWT from the 3-byte burst; TFV <- 0; finish(0) (R178). -/
def loadRawt (s : State) : State := finishEng .ok { s with rawt := rawTemperature s, tfv := false }

/-- LDRAWT's completion step (R178). -/
def completeLdrawt (s : State) : State := engCheck (received 3 s) .errNoRx loadRawt s

/-- LDRAWT (R178). -/
def execLdrawt (s : State) : Result := engCommand 0x12 completeLdrawt s

/-- LDRAWH past its check: RAWH from the 2-byte burst; TFV unchanged; finish(0) (R180). -/
def loadRawh (s : State) : State := finishEng .ok { s with rawh := rawHumidity s }

/-- LDRAWH's completion step (R180). -/
def completeLdrawh (s : State) : State := engCheck (received 2 s) .errNoRx loadRawh s

/-- LDRAWH (R180). -/
def execLdrawh (s : State) : Result := engCommand 0x13 completeLdrawh s

end Sys2Proof.Machine
end

