-- ==== Sys2Proof/Machine/Compensation.lean ====
section
/-! DEFINITION. The two compensation commands (spec/43_compensation.md R190 to R201). -/

namespace Sys2Proof.Machine

/-- COMPT past its check: TEMP, TFINE, TCLO, TCHI; TFV <- 1; finish(0) (R191). -/
def compensateTemperature (s : State) : State :=
  finishEng .ok
    { s with
      temp := compensatedTemp (thermalFine s.rawt s.cal)
      tfine := thermalFine s.rawt s.cal
      tclo := clampedLow tempLo (centiDegrees (thermalFine s.rawt s.cal))
      tchi := clampedHigh tempHi (centiDegrees (thermalFine s.rawt s.cal))
      tfv := true }

/-- COMPT's completion step (R191). -/
def completeCompt (s : State) : State := engCheck (calibrated s) .errNoCal compensateTemperature s

/-- COMPT (R191). -/
def execCompt (s : State) : Result := engCommand 0x14 completeCompt s

/-- COMPH past its checks: HUM, HCLO, HCHI; finish(0). It takes TFINE from its register and leaves TFV (R195, R196). -/
def compensateHumidity (s : State) : State :=
  finishEng .ok
    { s with
      hum := compensatedHum (humPreClamp s.rawh s.tfine s.cal)
      hclo := clampedLow humLo (humPreClamp s.rawh s.tfine s.cal)
      hchi := clampedHigh humHi (humPreClamp s.rawh s.tfine s.cal) }

/-- COMPH's completion step: the calibration set is checked before TFV (R171, R194, R196). -/
def completeComph (s : State) : State :=
  engCheck (calibrated s) .errNoCal (fun s => engCheck s.tfv .errTfine compensateHumidity s) s

/-- COMPH (R196). -/
def execComph (s : State) : Result := engCommand 0x15 completeComph s

end Sys2Proof.Machine
end

