-- ==== Sys2Proof/Machine/BusSteps.lean ====
section
/-! DEFINITION. The bus steps of the I2C master FSM (spec/40_bus_steps.md R110 to R122): the steps a SEQ is made of, the FSM's
issue step, the BE's answer step, and the encoding of the BE port (spec/30_encoding.md R97). -/

namespace Sys2Proof.Machine

/-- C_START, a start condition transmitted (R113). -/
def condStart : Byte := 0x08
/-- C_RSTART, a repeated start condition transmitted (R113). -/
def condRStart : Byte := 0x10
/-- C_SLAW_ACK (R113). -/
def condSlawAck : Byte := 0x18
/-- C_DTX_ACK (R113). -/
def condDtxAck : Byte := 0x28
/-- C_SLAR_ACK (R113). -/
def condSlarAck : Byte := 0x40
/-- C_DRX_ACK (R113). -/
def condDrxAck : Byte := 0x50
/-- C_DRX_NACK (R113). -/
def condDrxNack : Byte := 0x58

/-- SLA+W = `{DEV.ADDR, 0}` (R97). -/
def slaW (dev : BitVec 7) : Byte := dev ++ (0 : BitVec 1)

/-- SLA+R = `{DEV.ADDR, 1}` (R97). -/
def slaR (dev : BitVec 7) : Byte := dev ++ (1 : BitVec 1)

/-- The START step: E = {0x08, 0x10}, F = 1 (R114). -/
def startStep : SeqStep := ⟨.start, .oneOf [condStart, condRStart] .errStart⟩

/-- The address-for-write step: E = {0x18}, F = 2 (R115). -/
def addrWStep (dev : BitVec 7) : SeqStep := ⟨.send (slaW dev), .oneOf [condSlawAck] .errAddrW⟩

/-- The address-for-read step: E = {0x40}, F = 3 (R115). -/
def addrRStep (dev : BitVec 7) : SeqStep := ⟨.send (slaR dev), .oneOf [condSlarAck] .errAddrR⟩

/-- A data step, the register index or the value: E = {0x28}, F = 4 (R115). -/
def dataStep (b : Byte) : SeqStep := ⟨.send b, .oneOf [condDtxAck] .errDataW⟩

/-- RECV(1), the byte followed by ACK: E = {0x50}, F = 5 (R116). -/
def recvAckStep : SeqStep := ⟨.recv true, .oneOf [condDrxAck] .errDataR⟩

/-- RECV(0), the byte followed by NACK: E = {0x58}, F = 5 (R116). -/
def recvNackStep : SeqStep := ⟨.recv false, .oneOf [condDrxNack] .errDataR⟩

/-- The STOP step: E is every value, and it cannot fail (R117). -/
def stopStep : SeqStep := ⟨.stop, .always⟩

/-- WRREG's SEQ (R140). -/
def seqWrreg (dev : BitVec 7) (regidx wdata : Byte) : List SeqStep :=
  [startStep, addrWStep dev, dataStep regidx, dataStep wdata, stopStep]

/-- SELREG's SEQ: its STOP "only if SELHOLD = 0" (R142). -/
def seqSelreg (dev : BitVec 7) (regidx : Byte) (selhold : Bool) : List SeqStep :=
  [startStep, addrWStep dev, dataStep regidx] ++ if selhold then [] else [stopStep]

/-- RDBYTE's SEQ (R144). -/
def seqRdbyte (dev : BitVec 7) : List SeqStep :=
  [startStep, addrRStep dev, recvNackStep, stopStep]

/-- RDBYTES's SEQ for n bytes, n ≥ 1: "RECV(1) ... for the first n-1 bytes", RECV(0) for the last (R146). -/
def seqRdbytes (dev : BitVec 7) (n : Nat) : List SeqStep :=
  [startStep, addrRStep dev] ++ List.replicate (n - 1) recvAckStep ++ [recvNackStep, stopStep]

/-- BUSSTOP's SEQ on a held bus (R148). -/
def seqBusstop : List SeqStep := [stopStep]

/-- n = max(1, N), the bytes RDBYTES receives (R146). -/
def burstLength (count : Byte) : Nat := max 1 count.toNat

/-- A step that receives a byte. -/
def SeqStep.isRecv (st : SeqStep) : Bool :=
  match st.action with
  | .recv _ => true
  | .start | .send _ | .stop => false

/-- j: "the number of RECV steps of this transaction that came before SEQ[K]" (R116). -/
def recvIndex (steps : List SeqStep) (k : Nat) : Nat := (steps.take k).countP SeqStep.isRecv

/-- The number of RECV steps in SEQ (R118). -/
def recvCount (steps : List SeqStep) : Nat := steps.countP SeqStep.isRecv

/-- The failure code of a step for this condition code, or none where cond ∈ E (R112 and the check under it). -/
def Check.failure (c : Check) (cond : Byte) : Option StatusCode :=
  match c with
  | .oneOf codes fail => if codes.contains cond then none else some fail
  | .always => none

/-- The success effect of a step: HELD <- 1 at a START, HELD <- 0 at a STOP, RXBUF[j] <- rxb at a RECV, and none at a SEND
(R114 to R117). -/
def stepEffect (st : SeqStep) (rxb : Byte) (s : State) : State :=
  match st.action with
  | .start => { s with held := true }
  | .send _ => s
  | .recv _ => { s with rxbuf := s.rxbuf.setIfInBounds (recvIndex s.seq s.k) rxb }
  | .stop => { s with held := false }

/-- The FSM issue step (R111): BusIssue(SEQ[K]); PHASE <- WAIT. -/
def fsmIssue (s : State) : Result :=
  match s.seq[s.k]? with
  | none => .fault .noStepAtK
  | some st => .next { s with busLog := st.action :: s.busLog, phase := .wait }

/-- After a step met its condition: K <- K + 1, then completion at K = length(SEQ) with the command's results (R118), else
PHASE <- ISSUE (spec/40_bus_steps.md section 2). -/
def advanceOrComplete (results : State → State) (s : State) : State :=
  if s.k + 1 = s.seq.length then finishFsm .ok (results s)
  else { s with phase := .issue, k := s.k + 1 }

/-- The BE answer step (R112): the check of SEQ[K], its success effect and advance, or the failure `finish(F)` with no success
effect (R119, R256). With no answer the FSM "stays in PHASE = WAIT" (R112, R258). -/
def fsmAnswer (results : State → State) (s : State) : Result :=
  match s.beAnswer with
  | none => .next s
  | some a =>
    match s.seq[s.k]? with
    | none => .fault .noStepAtK
    | some st =>
      match st.check.failure a.cond with
      | some f => .next (finishFsm f { s with beAnswer := none })
      | none => .next (advanceOrComplete results (stepEffect st a.rxb { s with beAnswer := none }))

/-- The FSM's next step in the transaction in progress: issue in PHASE = ISSUE, the answer's check in PHASE = WAIT (R29). -/
def fsmStep (results : State → State) (s : State) : Result :=
  match s.phase with
  | .idle => .next s
  | .issue => fsmIssue s
  | .wait => fsmAnswer results s

/-- The success results of a receive: RXLEN <- the number of RECV steps in SEQ (R118). -/
def receiveResults (s : State) : State := { s with rxlen := BitVec.ofNat 8 (recvCount s.seq) }

/-- The success results of a command that receives nothing: none (R118, R141). -/
def noResults (s : State) : State := s

/-- An I2C command: its acceptance, or its transaction's next step (R92, R111, R112). -/
def fsmCommand (op : Byte) (accept results : State → State) (s : State) : Result :=
  commandStep (fsmRuns op s) accept (fsmStep results) s

/-- ACT of the BE port (R97). -/
def BusAction.act : BusAction → BitVec 2
  | .start => 0b00
  | .send _ => 0b01
  | .recv _ => 0b10
  | .stop => 0b11

/-- TXB of the BE port: "It has meaning for SEND only" (R97). -/
def BusAction.txb : BusAction → Option Byte
  | .send b => some b
  | .start | .recv _ | .stop => none

/-- ACKB of the BE port: "It has meaning for RECV only. 1 = ACK, 0 = NACK" (R97). -/
def BusAction.ackb : BusAction → Option Bool
  | .recv ack => some ack
  | .start | .send _ | .stop => none

/-- The action that the fields of the BE port stand for (R97). -/
def busActionOfPort (act : BitVec 2) (txb : Byte) (ackb : Bool) : BusAction :=
  match act.toNat with
  | 0 => .start
  | 1 => .send txb
  | 2 => .recv ackb
  | _ => .stop

/-- What the BE port presents: the action awaiting the BE's answer, in PHASE = WAIT only (R48, R97). -/
def pendingAction (s : State) : Option BusAction :=
  match s.phase with
  | .wait => (s.seq[s.k]?).map SeqStep.action
  | .idle | .issue => none

end Sys2Proof.Machine
end

