-- ==== Sys2Proof/Machine/Transactions.lean ====
section
/-! DEFINITION. The five I2C commands (spec/41_i2c_transactions.md R140 to R150). Each meaning is one atomic step of its command:
the acceptance, or the next bus step (log entry 1). -/

namespace Sys2Proof.Machine

/-- WRREG's acceptance: SEQ from DEV.ADDR, REGIDX.REG and WDATA.VALUE (R140). -/
def acceptWrreg (s : State) : State := startTransaction 0x01 (seqWrreg s.dev s.regidx s.wdata) s

/-- WRREG (R140). -/
def execWrreg (s : State) : Result := fsmCommand 0x01 acceptWrreg noResults s

/-- SELREG's acceptance: SEQ "depends on CONFIG.SELHOLD as it stands at acceptance" (R142). -/
def acceptSelreg (s : State) : State := startTransaction 0x02 (seqSelreg s.dev s.regidx s.selhold) s

/-- SELREG (R142). -/
def execSelreg (s : State) : Result := fsmCommand 0x02 acceptSelreg noResults s

/-- RDBYTE's acceptance: RXLEN <- 0; SEQ from DEV.ADDR; COUNT is not read (R144). -/
def acceptRdbyte (s : State) : State := startTransaction 0x03 (seqRdbyte s.dev) { s with rxlen := 0 }

/-- RDBYTE (R144). -/
def execRdbyte (s : State) : Result := fsmCommand 0x03 acceptRdbyte receiveResults s

/-- RDBYTES's acceptance: RXLEN <- 0; then finish(6) for N > RXDEPTH, else the burst of n = max(1, N) bytes (R146). -/
def acceptRdbytes (s : State) : State :=
  if Config.rxDepth < s.count.toNat then finishAtAcceptance 0x04 .errCount { s with rxlen := 0 }
  else startTransaction 0x04 (seqRdbytes s.dev (burstLength s.count)) { s with rxlen := 0 }

/-- RDBYTES (R146). -/
def execRdbytes (s : State) : Result := fsmCommand 0x04 acceptRdbytes receiveResults s

/-- BUSSTOP's acceptance: finish(0) with HELD = 0, else the one-step SEQ (R148). -/
def acceptBusstop (s : State) : State :=
  if s.held then startTransaction 0x05 seqBusstop s else finishAtAcceptance 0x05 .ok s

/-- BUSSTOP (R148). -/
def execBusstop (s : State) : Result := fsmCommand 0x05 acceptBusstop noResults s

end Sys2Proof.Machine
end

