-- ==== Sys2Proof/Machine/Dispatch.lean ====
section
/-! DEFINITION. One arm per command: each calls the command's own meaning (spec/30_encoding.md R93). -/

namespace Sys2Proof.Machine

def exec (i : Instr) (s : State) : Host.Outcome State Fault Refusal :=
  match i with
  | .wrreg => Sys2Proof.Machine.execWrreg s
  | .selreg => Sys2Proof.Machine.execSelreg s
  | .rdbyte => Sys2Proof.Machine.execRdbyte s
  | .rdbytes => Sys2Proof.Machine.execRdbytes s
  | .busstop => Sys2Proof.Machine.execBusstop s
  | .ldcala => Sys2Proof.Machine.execLdcala s
  | .ldcalb => Sys2Proof.Machine.execLdcalb s
  | .ldrawt => Sys2Proof.Machine.execLdrawt s
  | .ldrawh => Sys2Proof.Machine.execLdrawh s
  | .compt => Sys2Proof.Machine.execCompt s
  | .comph => Sys2Proof.Machine.execComph s

end Sys2Proof.Machine
end

