-- ==== Sys2Proof/Machine/HostPort.lean ====
section
/-! DEFINITION. The host port: the register map, a read, a write, and the acceptance of a command word (spec/20_memory.md R60 to
R78, spec/30_encoding.md R91 to R94). -/

namespace Sys2Proof.Machine

/-- What stands at an offset of the window (R62). -/
inductive HostReg
  | cmd
  | status
  | dev
  | regidx
  | wdata
  | count
  | rxlen
  | config
  | rawt
  | rawh
  | temp
  | tfine
  | hum
  | calT1
  | calT2
  | calT3
  | calP1
  | calP2
  | calP3
  | calP4
  | calP5
  | calP6
  | calP7
  | calP8
  | calP9
  | calH1
  | calH2
  | calH3
  | calH4
  | calH5
  | calH6
  | rxbuf (i : Fin 32)
  | reserved
  deriving DecidableEq, Repr

/-- The register map by byte offset from BASE (R62). Every offset it does not name is reserved (R63). -/
def regAt (off : Nat) : HostReg :=
  match off with
  | 0x000 => .cmd
  | 0x004 => .status
  | 0x008 => .dev
  | 0x00C => .regidx
  | 0x010 => .wdata
  | 0x014 => .count
  | 0x018 => .rxlen
  | 0x01C => .config
  | 0x020 => .rawt
  | 0x024 => .rawh
  | 0x028 => .temp
  | 0x02C => .tfine
  | 0x030 => .hum
  | 0x040 => .calT1
  | 0x044 => .calT2
  | 0x048 => .calT3
  | 0x04C => .calP1
  | 0x050 => .calP2
  | 0x054 => .calP3
  | 0x058 => .calP4
  | 0x05C => .calP5
  | 0x060 => .calP6
  | 0x064 => .calP7
  | 0x068 => .calP8
  | 0x06C => .calP9
  | 0x070 => .calH1
  | 0x074 => .calH2
  | 0x078 => .calH3
  | 0x07C => .calH4
  | 0x080 => .calH5
  | 0x084 => .calH6
  | n => if 0x100 ≤ n ∧ n < 0x180 then .rxbuf (Fin.ofNat 32 ((n - 0x100) / 4)) else .reserved

/-- A host read: the whole 32-bit register as it stands (R65, R66). Undefined bits and reserved offsets read 0 (R63). -/
def readReg (r : HostReg) (s : State) : Word :=
  match r with
  | .cmd => zext s.lastCmd
  | .status => statusWord s
  | .dev => zext s.dev
  | .regidx => zext s.regidx
  | .wdata => zext s.wdata
  | .count => zext s.count
  | .rxlen => zext s.rxlen
  | .config => zext (bit1 s.selhold)
  | .rawt => zext s.rawt
  | .rawh => zext s.rawh
  | .temp => s.temp
  | .tfine => s.tfine
  | .hum => s.hum
  | .calT1 => zext s.cal.t1
  | .calT2 => sext s.cal.t2
  | .calT3 => sext s.cal.t3
  | .calP1 => zext s.cal.p1
  | .calP2 => sext s.cal.p2
  | .calP3 => sext s.cal.p3
  | .calP4 => sext s.cal.p4
  | .calP5 => sext s.cal.p5
  | .calP6 => sext s.cal.p6
  | .calP7 => sext s.cal.p7
  | .calP8 => sext s.cal.p8
  | .calP9 => sext s.cal.p9
  | .calH1 => zext s.cal.h1
  | .calH2 => sext s.cal.h2
  | .calH3 => zext s.cal.h3
  | .calH4 => sext s.cal.h4
  | .calH5 => sext s.cal.h5
  | .calH6 => sext s.cal.h6
  | .rxbuf i => zext (rxByte s i)
  | .reserved => 0

/-- The registers whose write while BUSY = 1 sets OVR: "CMD, DEV, REGIDX, WDATA, COUNT, CONFIG, RAWT or RAWH" (R67). -/
def HostReg.writable : HostReg → Bool
  | .cmd | .dev | .regidx | .wdata | .count | .config | .rawt | .rawh => true
  | .status | .rxlen | .temp | .tfine | .hum
  | .calT1 | .calT2 | .calT3 | .calP1 | .calP2 | .calP3 | .calP4 | .calP5 | .calP6 | .calP7 | .calP8 | .calP9
  | .calH1 | .calH2 | .calH3 | .calH4 | .calH5 | .calH6 | .rxbuf _ | .reserved => false

/-- A write while BUSY = 0: "stores `v` masked to the register's defined bits", a write to RAWT also clears TFV (R26, R36), and
a write to a read-only register or a reserved offset is ignored (R63, R68). CMD is not here: `writeCmd`. -/
def storeReg (r : HostReg) (v : Word) (s : State) : State :=
  match r with
  | .dev => { s with dev := v.setWidth 7 }
  | .regidx => { s with regidx := v.setWidth 8 }
  | .wdata => { s with wdata := v.setWidth 8 }
  | .count => { s with count := v.setWidth 8 }
  | .config => { s with selhold := v.getLsbD 0 }
  | .rawt => { s with rawt := v.setWidth 20, tfv := false }
  | .rawh => { s with rawh := v.setWidth 16 }
  | .cmd | .status | .rxlen | .temp | .tfine | .hum
  | .calT1 | .calT2 | .calT3 | .calP1 | .calP2 | .calP3 | .calP4 | .calP5 | .calP6 | .calP7 | .calP8 | .calP9
  | .calH1 | .calH2 | .calH3 | .calH4 | .calH5 | .calH6 | .rxbuf _ | .reserved => s

/-- A write while BUSY = 1 (R67): OVR <- 1 for the registers it names, and nothing at all elsewhere. -/
def writeWhileBusy (r : HostReg) (s : State) : State := if r.writable then ignoredWrite s else s

/-- A CMD write while BUSY = 0 is accepted: the command's acceptance, or the illegal-opcode path (R92, R94). -/
def acceptWord (v : Word) (s : State) : Result :=
  match decode v with
  | .ok i => exec i s
  | .error (.illegalOpcode op) => .next (illegalOpcode op s)

/-- A host write of v to a register of the map (R66, R67, R68, R92). -/
def writeReg (r : HostReg) (v : Word) (s : State) : Result :=
  if s.busy then .next (writeWhileBusy r s)
  else
    match r with
    | .cmd => acceptWord v s
    | r => .next (storeReg r v s)

/-- Why the host port takes no such access, or none where it does: width, alignment, window, in this order (R64, U10). -/
def accessRefusal (off : Int) (bytes : Nat) : Option Refusal :=
  if accessSizeOk bytes then
    if accessAlignedOk off then
      if accessInWindow off then none else some (.hostAccessOutsideWindow off)
    else some (.hostAccessMisaligned off)
  else some (.hostAccessSize bytes)

/-- `MemWrite(BASE + off, bytes, v)` (R64). -/
def memWrite (off : Int) (bytes : Nat) (v : Word) (s : State) : Result :=
  match accessRefusal off bytes with
  | some r => .refused r
  | none => writeReg (regAt off.toNat) v s

/-- `MemRead(BASE + off, bytes)`: the value, or why there is none (R64). A read changes no state (R66). -/
def memRead (off : Int) (bytes : Nat) (s : State) : Except Refusal Word :=
  match accessRefusal off bytes with
  | some r => .error r
  | none => .ok (readReg (regAt off.toNat) s)

/-- The offset of a byte address: `addr = BASE + offset` (R11, R61). Log entry 5. -/
def offsetOf (addr : Nat) : Int := (addr : Int) - (Config.base : Int)

/-- "The block decodes address bits [8:2] as the word index within the window" (R61). -/
def wordIndex (addr : Nat) : Nat := addr / 4 % 128

end Sys2Proof.Machine
end

