-- ==== Sys2Proof/Machine/HostDriver.lean ====
section
/-! DEFINITION. The HOST as an agent: the host notation and its expansions (spec/30_encoding.md R99, R100), one step of a host
program, and the reference host procedures (spec/45_host_procedures.md R220 to R233; "outside the block", R5). -/

namespace Sys2Proof.Machine

/-- The value of a name, the latest one read. -/
def readVar (vars : List (Nat × Word)) (name : Nat) : Option Word := vars.lookup name

/-- `name <- v`: one entry a name. -/
def setVar (vars : List (Nat × Word)) (name : Nat) (v : Word) : List (Nat × Word) :=
  (name, v) :: vars.filter (fun p => p.1 != name)

/-- `name[hi:lo]` as an unsigned number (R8). -/
def bitsOf (v : Word) (hi lo : Nat) : Nat := v.toNat / 2 ^ lo % 2 ^ (hi + 1 - lo)

/-- The HOST goes to the operation `distance` away from the present one. -/
def hostJump (distance : Int) (s : State) : State :=
  { s with host := { s.host with pc := ((s.host.pc : Int) + distance).toNat } }

/-- The HOST goes to its next operation. -/
def hostNext (s : State) : State := { s with host := { s.host with pc := s.host.pc + 1 } }

/-- The HOST enters the procedure whose operations are the `length` next ones, and keeps the place after them. -/
def hostCall (length : Nat) (s : State) : State :=
  { s with host := { s.host with pc := s.host.pc + 1, returns := (s.host.pc + 1 + length) :: s.host.returns } }

/-- A procedure's return: the HOST goes on where its caller does (R233). A procedure that is the whole program has no caller, and the
HOST has then nothing more to do. -/
def hostReturn (s : State) : State :=
  match s.host.returns with
  | [] => s
  | place :: rest => { s with host := { s.host with pc := place, returns := rest } }

/-- One operation of the HOST (R99). An access of the host port moves past the operation and is performed, in one step (R69). -/
def runHostOp (op : HostOp) (s : State) : Result :=
  match op with
  | .w off bytes v => memWrite off bytes v (hostNext s)
  | .r off bytes name =>
    match memRead off bytes s with
    | .error r => .refused r
    | .ok v => .next (hostNext { s with host := { s.host with vars := setVar s.host.vars name v } })
  | .bne name hi lo v distance =>
    match readVar s.host.vars name with
    | none => .refused (.hostNameUnread name)
    | some x => .next (if bitsOf x hi lo ≠ v then hostJump distance s else hostNext s)
  | .beq name hi lo v distance =>
    match readVar s.host.vars name with
    | none => .refused (.hostNameUnread name)
    | some x => .next (if bitsOf x hi lo = v then hostJump distance s else hostNext s)
  | .sleep _ => .next (hostNext s)
  | .setStatus st name =>
    match readVar s.host.vars name with
    | none => .refused (.hostNameUnread name)
    | some x =>
      .next (hostNext { s with host := { s.host with status := some st, blockCode := x.extractLsb' 0 4 } })
  | .setIdentity name =>
    match readVar s.host.vars name with
    | none => .refused (.hostNameUnread name)
    | some x => .next (hostNext { s with host := { s.host with identity := some (x.extractLsb' 0 8) } })
  | .beqStatus st distance => .next (if s.host.status = some st then hostJump distance s else hostNext s)
  | .call length => .next (hostCall length s)
  | .ret => .next (hostReturn s)
  | .done => .next s

/-- The HOST's step: the operation at its place in its program, or nothing past its end. -/
def hostStep (s : State) : Result :=
  match s.host.prog[s.host.pc]? with
  | none => .next s
  | some op => runHostOp op s

/-- The HOST has something left to do: it is past its program's end neither by its place, nor by `done`, nor by a return to no caller. -/
def hostActive (s : State) : Bool :=
  match s.host.prog[s.host.pc]? with
  | none => false
  | some .done => false
  | some .ret => s.host.returns != []
  | some _ => true

/-- `W off, v` (R99). -/
def hostW (off : Nat) (v : Word) : HostOp := .w off 4 v

/-- `R off -> name` (R99). -/
def hostR (off name : Nat) : HostOp := .r off 4 name

/-- `CMD m` (R100). -/
def hostCmd (i : Instr) : HostOp := hostW 0x000 (encode i)

/-- The name the procedures read STATUS into, `s` (R100). -/
def nameS : Nat := 0

/-- The name of the identity byte, `id` (R222). -/
def nameId : Nat := 1

/-- The name the poll of R229 reads the sensor's byte into. -/
def nameReady : Nat := 2

/-- `WAIT`: read STATUS until BUSY = 0 (R100). -/
def hostWait : List HostOp := [hostR 0x004 nameS, .bne nameS 8 8 0 (-1)]

/-- `EXEC m`: `CMD m` then `WAIT` (R100). -/
def hostExec (i : Instr) : List HostOp := hostCmd i :: hostWait

/-- `CHECK` (R100): go on only if CODE = 0, else stop. -/
def hostCheck : List HostOp := [hostR 0x004 nameS, .beq nameS 3 0 0 2, .done]

/-- `SETDEV a` (R100). -/
def hostSetdev (a : BitVec 7) : HostOp := hostW 0x008 (zext a)

/-- `SETREG r` (R100). -/
def hostSetreg (r : Byte) : HostOp := hostW 0x00C (zext r)

/-- `SETVAL b` (R100). -/
def hostSetval (b : Byte) : HostOp := hostW 0x010 (zext b)

/-- `SETCNT n` (R100). -/
def hostSetcnt (n : Byte) : HostOp := hostW 0x014 (zext n)

/-- `EXEC m; if CODE ≠ 0: status <- st; return`, the code taken from the STATUS that ended the WAIT (R221, R233). -/
def hostExecOr (i : Instr) (st : HostStatus) : List HostOp :=
  hostExec i ++ [.beq nameS 3 0 0 3, .setStatus st nameS, .ret]

/-- What a caller does when a procedure has returned without the status it wants (log entry 24): "Fatal vs. recoverable is a caller policy, not
enforced by the core" (R233). -/
inductive CallerPolicy
  /-- The caller returns as well. -/
  | fatal
  /-- The caller goes on as it does after a success. -/
  | ignore
  /-- The caller issues BUSSTOP and then repeats the whole procedure, this many times at most; after that it returns. -/
  | recoverable (times : Nat)
  deriving DecidableEq, Repr

/-- `proc; if status ≠ good: return` (R230). -/
def callFatal (good : HostStatus) (proc : List HostOp) : List HostOp :=
  .call proc.length :: proc ++ [.beqStatus good 2, .ret]

/-- `proc`, and while the status is not `good`, BUSSTOP "first ... and then repeat the whole procedure" (R233). -/
def callRecoverable (good : HostStatus) (proc : List HostOp) : Nat → List HostOp
  | 0 => callFatal good proc
  | times + 1 =>
    let again := hostExec .busstop ++ callRecoverable good proc times
    .call proc.length :: proc ++ [.beqStatus good (again.length + 1)] ++ again

/-- A procedure's use under the caller's policy (R233). -/
def callUnder (policy : CallerPolicy) (good : HostStatus) (proc : List HostOp) : List HostOp :=
  match policy with
  | .fatal => callFatal good proc
  | .ignore => .call proc.length :: proc
  | .recoverable times => callRecoverable good proc times

/-- Oversampling normalisation: values "not in {0,1,2,4,8,16} are normalized to ×1" (R225). -/
def normaliseOversampling (o : Nat) : Nat := if o ∈ [0, 1, 2, 4, 8, 16] then o else 1

/-- The 3-bit oversampling field of a requested value (R225). -/
def encodeOversampling (o : Nat) : BitVec 3 :=
  match normaliseOversampling o with
  | 0 => 0b000
  | 2 => 0b010
  | 4 => 0b011
  | 8 => 0b100
  | 16 => 0b101
  | _ => 0b001

/-- The number of active channels n (R227): "depends only on the number of active channels" (R228). -/
def activeChannels (t p h : BitVec 3) : Nat :=
  (if t ≠ 0 then 1 else 0) + (if p ≠ 0 then 1 else 0) + (if h ≠ 0 then 1 else 0)

/-- DELAY[n] (R227). -/
def measurementDelay (n : Nat) : Nat :=
  match n with
  | 0 => 0
  | 1 => Config.delayShort
  | 2 => Config.delayMedium
  | _ => Config.delayLong

/-- The CTRL_MEAS byte `(t << 5) | (p << 2) | MODE_FORCED` (R227). -/
def ctrlMeas (p : SensorParams) (t pr : BitVec 3) : Byte := t ++ pr ++ p.modeForced

/-- `initialize()` (R222). With a start-up time, the host "inserts the timing service's sleep there", between the soft reset and the
configuration write (R224). -/
def initializeProc (p : SensorParams) (startup : Option Nat) : List HostOp :=
  [hostSetdev p.sensAddr, hostSetreg p.regId] ++ hostExecOr .selreg .idRegErr
  ++ hostExecOr .rdbyte .idReadErr
  ++ [hostR 0x100 nameId, .beq nameId 7 0 p.chipId.toNat 3, .setStatus .idMismatch nameS, .ret]
  ++ [hostSetreg p.regReset, hostSetval p.resetVal] ++ hostExecOr .wrreg .resetErr
  ++ (match startup with
      | none => []
      | some ms => [.sleep ms])
  ++ [hostSetreg p.regConfig, hostSetval p.configBase] ++ hostExecOr .wrreg .configErr
  ++ [.setStatus .initSucc nameS, .setIdentity nameId, .ret]

/-- `loadCalibration()` (R226). -/
def loadCalibrationProc (p : SensorParams) : List HostOp :=
  [hostSetdev p.sensAddr, hostSetreg p.regCal1] ++ hostExecOr .selreg .cal1Err
  ++ [hostSetcnt 26] ++ hostExecOr .rdbytes .cal1Err ++ hostExecOr .ldcala .cal1Err
  ++ [hostSetreg p.regCal2] ++ hostExecOr .selreg .cal2Err
  ++ [hostSetcnt 8] ++ hostExecOr .rdbytes .cal2Err ++ hostExecOr .ldcalb .cal2Err
  ++ [.setStatus .ok nameS, .ret]

/-- A ready status bit of the sensor: its register, its place, and its value when the measurement is complete. "The position of that
bit is not in the source" (R229), so all three are given by whoever builds the program. -/
structure ReadyBit where
  reg   : Byte
  bit   : Nat
  value : Nat
  deriving DecidableEq, Repr

/-- The poll that may stand in for the delay: "A host that polls a ready bit instead reads it with SELREG and RDBYTE" (R229). The last
operation goes back to the first until the bit has its value. -/
def pollReady (b : ReadyBit) : List HostOp :=
  [hostSetreg b.reg] ++ hostExecOr .selreg .rawErr ++ hostExecOr .rdbyte .rawErr
  ++ [hostR 0x100 nameReady, .bne nameReady b.bit b.bit b.value (-14)]

/-- The wait for the measurement: the delay of R227, or the poll of R229 in its place. -/
def measurementWait (n : Nat) (poll : Option ReadyBit) : List HostOp :=
  match poll with
  | none => [.sleep (measurementDelay n)]
  | some b => pollReady b

/-- `startMeasurement(ovsT, ovsP, ovsH)` (R227): the humidity register first (R293). -/
def startMeasurementProc (p : SensorParams) (ovsT ovsP ovsH : Nat) (poll : Option ReadyBit) : List HostOp :=
  let t := encodeOversampling ovsT
  let pr := encodeOversampling ovsP
  let h := encodeOversampling ovsH
  [hostSetdev p.sensAddr, hostSetreg p.regCtrlHum, hostSetval (h.setWidth 8)] ++ hostExecOr .wrreg .ovsErr
  ++ [hostSetreg p.regCtrlMeas, hostSetval (ctrlMeas p t pr)] ++ hostExecOr .wrreg .ovsErr
  ++ measurementWait (activeChannels t pr h) poll ++ [.setStatus .ok nameS, .ret]

/-- `readRawTemperature(ovs)` (R230). -/
def readRawTemperatureProc (p : SensorParams) (ovs : Nat) (poll : Option ReadyBit) : List HostOp :=
  callFatal .ok (startMeasurementProc p ovs 0 0 poll)
  ++ [hostSetreg p.regTemp] ++ hostExecOr .selreg .rawErr
  ++ [hostSetcnt 3] ++ hostExecOr .rdbytes .rawErr ++ hostExec .ldrawt ++ [.ret]

/-- `readRawHumidity(ovs)` (R231). -/
def readRawHumidityProc (p : SensorParams) (ovs : Nat) (poll : Option ReadyBit) : List HostOp :=
  callFatal .ok (startMeasurementProc p 0 0 ovs poll)
  ++ [hostSetreg p.regHum] ++ hostExecOr .selreg .rawErr
  ++ [hostSetcnt 2] ++ hostExecOr .rdbytes .rawErr ++ hostExec .ldrawh ++ [.ret]

/-- One measurement cycle in the reference host's order (R232), with the policy of its host on a failed reading (R233). The cycle
returns too, so that a caller can run it again and again. -/
def measurementCycleProc (p : SensorParams) (ovsT ovsH : Nat) (poll : Option ReadyBit) (policy : CallerPolicy) :
    List HostOp :=
  callUnder policy .ok (readRawTemperatureProc p ovsT poll) ++ hostExec .compt
  ++ callUnder policy .ok (readRawHumidityProc p ovsH poll) ++ hostExec .comph ++ [.ret]

end Sys2Proof.Machine
end

