-- ==== Sys2Proof/Machine/Agents.lean ====
section
/-! DEFINITION. The four agents' moves and their interleaving (spec/00_scope.md R3, spec/60_exceptions.md R255,
spec/70_reset_and_hazards.md R295), and the placing of a command word where the machine takes its next one. -/

namespace Sys2Proof.Machine

/-- The I2C command the FSM has in progress (R29: CUR). -/
def fsmInstr (s : State) : Option Instr :=
  match decodeOpcode s.cur with
  | .ok i => if i.isFsm then some i else none
  | .error _ => none

/-- The engine command the ENG has pending (R28: LASTCMD, which no write changes while BUSY = 1). -/
def engInstr (s : State) : Option Instr :=
  match decodeOpcode s.lastCmd with
  | .ok i => if i.isFsm then none else some i
  | .error _ => none

/-- A unit's step is its command's next atomic step. -/
def stepCommand (i : Option Instr) (s : State) : Result :=
  match i with
  | some i => exec i s
  | none => .fault .noCommandInProgress

/-- One move of one agent. A move whose step is not enabled changes nothing (log entry 3). -/
def runMove (m : Move) (s : State) : Result :=
  match m with
  | .host => hostStep s
  | .fsm => if s.phase = .issue then stepCommand (fsmInstr s) s else .next s
  | .be cond rxb =>
    if s.phase = .wait then stepCommand (fsmInstr s) { s with beAnswer := some ⟨cond, rxb⟩ } else .next s
  | .eng => if s.engPending then stepCommand (engInstr s) s else .next s
  | .reset => .next (resetBlock s)

/-- The move that is made when none is planned: a pending engine command completes (weak fairness, R170), else the FSM issues,
else the HOST goes on, else nothing is enabled (log entry 3). The BE never answers unplanned (R112). -/
def unplannedMove (s : State) : Option Move :=
  if s.engPending then some .eng
  else if s.phase = .issue then some .fsm
  else if hostActive s then some .host
  else none

/-- One step of the machine: the next planned move, or the unplanned one. With nothing enabled the machine is idle, "and all its
state is kept" (R265), or it waits for a BE that never answers (R258). -/
def runNext (s : State) : Result :=
  match s.moves with
  | m :: rest => runMove m { s with moves := rest }
  | [] =>
    match unplannedMove s with
    | some m => runMove m s
    | none => .next s

/-- s with the write of v to CMD as the HOST's one operation, the HOST to move next, and both units idle, so that the write is
accepted (R92, log entry 6). -/
def placeCommand (s : State) (v : Word) : State :=
  { s with
    host := { s.host with prog := [hostW 0x000 v], pc := 0 }
    moves := .host :: s.moves
    phase := .idle
    k := 0
    engPending := false }

end Sys2Proof.Machine
end

