-- ==== Sys2Proof/Machine/Step.lean ====
section
/-! DEFINITION. The machine's step, and a command word placed as its next one. The block fetches no instructions (spec/20_memory.md
R74): a command is a word the HOST writes to CMD. -/

namespace Sys2Proof.Machine

/-- One step: the next move of one agent (R3, R255). -/
def step (s : State) : Host.Outcome State Fault Refusal := runNext s

/-- s with the word whose low nbits bits are w's, zeros above, placed so that the very next step is the HOST's accepted write of it
to CMD. -/
def State.withFetchWord (s : State) (nbits w : Nat) : State :=
  placeCommand s (BitVec.ofNat 32 (w % 2 ^ nbits))

end Sys2Proof.Machine
end

