-- ==== Sys2Proof/Safety.lean ====
section
/-! DEFINITION. What the machine's invariants are, and what a safe run is, in the terms the statements use. -/

namespace Sys2Proof.Safety

open Sys2Proof.Machine

/-- SEQ of an I2C command for the operand registers as they stand (R30: they "stay constant for the whole transaction"). -/
def transactionSeq (i : Instr) (s : State) : List SeqStep :=
  match i with
  | .wrreg => seqWrreg s.dev s.regidx s.wdata
  | .selreg => seqSelreg s.dev s.regidx s.selhold
  | .rdbyte => seqRdbyte s.dev
  | .rdbytes => seqRdbytes s.dev (burstLength s.count)
  | .busstop => seqBusstop
  | .ldcala | .ldcalb | .ldrawt | .ldrawh | .compt | .comph => []

/-- The commands that receive bytes. -/
def isReceive (i : Instr) : Bool :=
  match i with
  | .rdbyte | .rdbytes => true
  | .wrreg | .selreg | .busstop | .ldcala | .ldcalb | .ldrawt | .ldrawh | .compt | .comph => false

/-- The transaction of the I2C command i is in progress: CUR and LASTCMD name it, SEQ is its step list, K is a step of it, a
receive has RXLEN = 0, and the bus is held from the granted START on (R28, R29, R30, R33, R34, R40, R146, R148). -/
structure InTransaction (i : Instr) (s : State) : Prop where
  unit    : i.isFsm = true
  cur     : s.cur = i.opcode
  last    : s.lastCmd = i.opcode
  alone   : s.engPending = false
  seq     : s.seq = transactionSeq i s
  inRange : s.k < s.seq.length
  rxlen   : isReceive i = true → s.rxlen = 0
  count   : i = .rdbytes → s.count.toNat ≤ Config.rxDepth
  held    : i = .busstop ∨ 0 < s.k → s.held = true

/-- The invariant of the two units: K is 0 when the FSM is idle, a busy FSM is in a transaction, a pending engine command is one
and is alone, no answer of the BE is left over, and RXLEN is a legal length (R29, R33, R40, R47, R48). -/
structure ControlInv (s : State) : Prop where
  idleK    : s.phase = .idle → s.k = 0
  busyFsm  : s.phase ≠ .idle → ∃ i, InTransaction i s
  busyEng  : s.engPending = true → s.phase = .idle ∧ ∃ i : Instr, i.isFsm = false ∧ s.lastCmd = i.opcode
  noAnswer : s.beAnswer = none
  rxlen    : s.rxlen.toNat ≤ Config.rxDepth

/-- The ranges of the results and the exclusion of opposite clamp flags (R37, R39, R200, R31). -/
structure RangeInv (s : State) : Prop where
  temp : -4000 ≤ s.temp.toInt ∧ s.temp.toInt ≤ 8500
  hum  : s.hum.toNat ≤ 102400
  tcl  : ¬(s.tclo = true ∧ s.tchi = true)
  hcl  : ¬(s.hclo = true ∧ s.hchi = true)

/-- What CALA, CALB and TFV promise: block 2 only after block 1, and a valid TFINE is the thermal fine value of the present RAWT and
the present, complete calibration set, with TEMP and its flags from the same COMPT (R36, R45). -/
structure FreshInv (s : State) : Prop where
  order : s.calb = true → s.cala = true
  fresh : s.tfv = true →
    s.cala = true ∧ s.calb = true ∧ s.tfine = thermalFine s.rawt s.cal
      ∧ s.temp = compensatedTemp s.tfine
      ∧ s.tclo = clampedLow tempLo (centiDegrees s.tfine)
      ∧ s.tchi = clampedHigh tempHi (centiDegrees s.tfine)

/-- The only reasons for which a step of a reachable state stops: an access that the host port does not take (R64), or a host program
that uses a name it has not read (R99). -/
def hostProgramRefusal : Refusal → Bool
  | .hostAccessSize _ | .hostAccessMisaligned _ | .hostAccessOutsideWindow _ | .hostNameUnread _ => true
  | _ => false

/-- An outcome no rule of the spec excludes: a next state, or a stop that is the host program's own doing. -/
def SafeOutcome (o : Result) : Prop :=
  match o with
  | .next _ => True
  | .fault _ => False
  | .refused r => hostProgramRefusal r = true

end Sys2Proof.Safety
end

