-- ==== Sys2Proof/Certificates/Slice0/Obligations.lean ====
section
/-! DEFINITION. The statements for the provers, and the vocabulary they are written in: the spec's tables and formulas, written a second
time from the spec (native BitVec arithmetic, literal condition codes), so that a slip in the model makes a statement false. -/

namespace Sys2Proof.Claims

open Sys2Proof.Machine Sys2Proof.Safety

/-- One row of a SEQ table of spec/41_i2c_transactions.md: action, E, F. -/
abbrev row (a : BusAction) (e : List Byte) (f : StatusCode) : SeqStep := ⟨a, .oneOf e f⟩

/-- The row `STOP | any | -`. -/
abbrev stopRow : SeqStep := ⟨.stop, .always⟩

/-- The row `START | {0x08, 0x10} | 1`. -/
abbrev startRow : SeqStep := row .start [0x08, 0x10] .errStart

/-- The address bytes `{DEV.ADDR, 0}` and `{DEV.ADDR, 1}` as numbers: twice the address, plus the R/W bit (R97). -/
abbrev addrByte (dev : BitVec 7) (read : Nat) : Byte := BitVec.ofNat 8 (2 * dev.toNat + read)

/-- max(1, N) (R146). -/
abbrev burst (s : State) : Nat := max 1 s.count.toNat

/-- The SEQ tables of R140, R142, R144, R146 and R148. -/
def specSeq (i : Instr) (s : State) : List SeqStep :=
  match i with
  | .wrreg =>
    [startRow, row (.send (addrByte s.dev 0)) [0x18] .errAddrW, row (.send s.regidx) [0x28] .errDataW,
      row (.send s.wdata) [0x28] .errDataW, stopRow]
  | .selreg =>
    [startRow, row (.send (addrByte s.dev 0)) [0x18] .errAddrW, row (.send s.regidx) [0x28] .errDataW]
      ++ (if s.selhold then [] else [stopRow])
  | .rdbyte =>
    [startRow, row (.send (addrByte s.dev 1)) [0x40] .errAddrR, row (.recv false) [0x58] .errDataR, stopRow]
  | .rdbytes =>
    [startRow, row (.send (addrByte s.dev 1)) [0x40] .errAddrR]
      ++ List.replicate (burst s - 1) (row (.recv true) [0x50] .errDataR)
      ++ [row (.recv false) [0x58] .errDataR, stopRow]
  | .busstop => [stopRow]
  | .ldcala | .ldcalb | .ldrawt | .ldrawh | .compt | .comph => []

/-- cond ∈ E (R112); any code at all for the STOP step (R117). -/
def meets (st : SeqStep) (cond : Byte) : Prop :=
  match st.check with
  | .oneOf e _ => cond ∈ e
  | .always => True

/-- The command starts a transaction at its acceptance: an I2C command, with COUNT.N ≤ 32 for RDBYTES (R146) and a held bus for
BUSSTOP (R148). -/
def startsTransaction (i : Instr) (s : State) : Prop :=
  i.isFsm = true ∧ (i = .rdbytes → s.count.toNat ≤ 32) ∧ (i = .busstop → s.held = true)

/-- The number of bytes a successful command receives (R40). -/
def bytesReceived (i : Instr) (s : State) : Nat :=
  match i with
  | .rdbyte => 1
  | .rdbytes => burst s
  | .wrreg | .selreg | .busstop | .ldcala | .ldcalb | .ldrawt | .ldrawh | .compt | .comph => 0

/-- For each answer in turn, the command's issue step and then its answer step (R111, R112). -/
def driveAnswers (i : Instr) : List BeAnswer → State → Result
  | [], s => .next s
  | a :: as, s =>
    match exec i s with
    | .next s1 =>
      match exec i { s1 with beAnswer := some a } with
      | .next s2 => driveAnswers i as s2
      | .fault r => .fault r
      | .refused r => .refused r
    | .fault r => .fault r
    | .refused r => .refused r

/-- A command from its acceptance on, with these answers of the BE. -/
def runCommand (i : Instr) (as : List BeAnswer) (s : State) : Result :=
  match exec i s with
  | .next s1 => driveAnswers i as s1
  | .fault r => .fault r
  | .refused r => .refused r

/-- `fine` of R191, in native s32 arithmetic. -/
def specFine (rawt : BitVec 20) (cal : Calibration) : Word :=
  let adc : Word := rawt.setWidth 32
  let t1 : Word := cal.t1.setWidth 32
  let t2 : Word := cal.t2.signExtend 32
  let t3 : Word := cal.t3.signExtend 32
  let var1 := ((adc.sshiftRight 3 - (t1 <<< 1)) * t2).sshiftRight 11
  let d := adc.sshiftRight 4 - t1
  let var2 := ((d * d).sshiftRight 12 * t3).sshiftRight 14
  var1 + var2

/-- `t` of R191: `(fine * 5 + 128) >> 8`. -/
def specCenti (fine : Word) : Int := (fine * 5 + 128).toInt / 256

/-- v before the clamp of R196, in native s32 arithmetic. -/
def specHumidity (rawh : BitVec 16) (tfine : Word) (cal : Calibration) : Word :=
  let adc : Word := rawh.setWidth 32
  let h1 : Word := cal.h1.setWidth 32
  let h2 : Word := cal.h2.signExtend 32
  let h3 : Word := cal.h3.setWidth 32
  let h4 : Word := cal.h4.signExtend 32
  let h5 : Word := cal.h5.signExtend 32
  let h6 : Word := cal.h6.signExtend 32
  let v := tfine - 76800
  let x := ((((adc <<< 14) - (h4 <<< 20)) - h5 * v) + 16384).sshiftRight 15
  let y := (((((v * h6).sshiftRight 10 * ((v * h3).sshiftRight 11 + 32768)).sshiftRight 10) + 2097152) * h2
    + 8192).sshiftRight 14
  let w := x * y
  w - (((w.sshiftRight 15 * w.sshiftRight 15).sshiftRight 7) * h1).sshiftRight 4

/-- The fields of the engine and its results: everything R150 says no I2C command reads or writes. -/
structure EngineFields where
  rawt  : BitVec 20
  rawh  : BitVec 16
  temp  : Word
  tfine : Word
  hum   : Word
  cal   : Calibration
  cala  : Bool
  calb  : Bool
  tfv   : Bool
  tclo  : Bool
  tchi  : Bool
  hclo  : Bool
  hchi  : Bool
  deriving DecidableEq, Repr

/-- s with these engine fields. -/
def withEngine (e : EngineFields) (s : State) : State :=
  { s with
    rawt := e.rawt, rawh := e.rawh, temp := e.temp, tfine := e.tfine, hum := e.hum, cal := e.cal
    cala := e.cala, calb := e.calb, tfv := e.tfv
    tclo := e.tclo, tchi := e.tchi, hclo := e.hclo, hchi := e.hchi }

/-- The same change made to an outcome's next state. -/
def mapNext (f : State → State) (o : Result) : Result :=
  match o with
  | .next s => .next (f s)
  | .fault r => .fault r
  | .refused r => .refused r

/-- The offsets of the registers R67 names: CMD, DEV, REGIDX, WDATA, COUNT, CONFIG, RAWT, RAWH (R62). -/
def writableOffsets : List Nat := [0x000, 0x008, 0x00C, 0x010, 0x014, 0x01C, 0x020, 0x024]

/-- The reserved offsets of the window (R62). -/
def reservedOffset (off : Nat) : Prop :=
  (0x034 ≤ off ∧ off ≤ 0x03C) ∨ (0x088 ≤ off ∧ off ≤ 0x0FC) ∨ (0x180 ≤ off ∧ off ≤ 0x1FC)

/-- The numbers of STATUS.CODE (R251). -/
def codeNumber (c : StatusCode) : Nat :=
  match c with
  | .ok => 0
  | .errStart => 1
  | .errAddrW => 2
  | .errAddrR => 3
  | .errDataW => 4
  | .errDataR => 5
  | .errCount => 6
  | .errNoRx => 8
  | .errNoCal => 9
  | .errTfine => 10
  | .errIllegal => 15

/-- The condition codes R113 names. -/
def namedConditions : List Byte := [0x08, 0x10, 0x18, 0x20, 0x28, 0x30, 0x38, 0x40, 0x48, 0x50, 0x58]

/-- The code with which step k of the command fails: 1 at a START; at a SEND its role's, for the address (step 1) 3 or 2, for read or for
write, and for a data byte 4; 5 at a RECV (R114, R115, R116). A STOP cannot fail (R117). -/
def failureCode (i : Instr) (k : Nat) (a : BusAction) : StatusCode :=
  match a with
  | .start => .errStart
  | .send _ => if k = 1 then (if isReceive i then .errAddrR else .errAddrW) else .errDataW
  | .recv _ => .errDataR
  | .stop => .ok

/-- A move that is neither an answer of the BE nor a reset. -/
def noAnswerNoReset (m : Move) : Prop := m = .host ∨ m = .fsm ∨ m = .eng

/-- The HOST's operation of the step to come is a write of this offset. -/
def hostWrites (s : State) (off : Int) : Prop :=
  ∃ (n : Nat) (v : Word), s.host.prog[s.host.pc]? = some (HostOp.w off n v)

/-- The step resets the block. -/
def resets (s t : State) : Prop := t.resets = s.resets + 1

/-- The step completes, with code 0, the engine command of this OPCODE, which LASTCMD names while it is pending (log entry 21). -/
def engineEnds (op : Byte) (s t : State) : Prop :=
  s.engPending = true ∧ s.lastCmd = op ∧ t.engPending = false ∧ t.code = .ok

end Sys2Proof.Claims

open Sys2Proof Sys2Proof.Machine Sys2Proof.Safety Sys2Proof.Claims

/-! ### Encoding -/

/-- A word decodes to a command exactly when it is that command's OPCODE under any 24 ignored bits (R91, R93). -/
def Obligations.DecodeAndEncodeAgree : Prop :=
  ∀ (v : Word) (i : Instr), decode v = .ok i ↔ ∃ g : BitVec 24, v = encodeWith g i

/-- The words the decoder rejects are those whose low byte is 0x00, 0x06 to 0x0F or 0x16 to 0xFF, each by that byte (R94). -/
def Obligations.IllegalOpcodesAreRejectedByValue : Prop :=
  ∀ v : Word,
    decode v = .error (.illegalOpcode (BitVec.ofNat 8 v.toNat)) ↔
      (v.toNat % 256 = 0 ∨ (0x06 ≤ v.toNat % 256 ∧ v.toNat % 256 ≤ 0x0F) ∨ 0x16 ≤ v.toNat % 256)

/-- The rows of R93's map, word by word, one of them with its ignored bits set (vector M7). -/
def Obligations.MapWordsDecode : Prop :=
  decode 0x00000001 = .ok .wrreg ∧ decode 0x00000002 = .ok .selreg ∧ decode 0x00000003 = .ok .rdbyte
  ∧ decode 0x00000004 = .ok .rdbytes ∧ decode 0x00000005 = .ok .busstop ∧ decode 0x00000010 = .ok .ldcala
  ∧ decode 0x00000011 = .ok .ldcalb ∧ decode 0x00000012 = .ok .ldrawt ∧ decode 0x00000013 = .ok .ldrawh
  ∧ decode 0x00000014 = .ok .compt ∧ decode 0x00000015 = .ok .comph ∧ decode 0xABCDEF14 = .ok .compt

/-! ### A step runs the decoded command -/

/-- The HOST's write of a decoded word to CMD, with the block idle, runs that command on the state that has moved past the write:
planned as the next move, or unplanned with nothing planned (R92; the move list is the model's own, log entry 3). -/
def Obligations.StepRunsTheWrittenCommand : Prop :=
  ∀ (s : State) (v : Word) (i : Instr),
    s.host.prog[s.host.pc]? = some (HostOp.w 0x000 4 v) → s.busy = false → decode v = .ok i →
    (∀ rest, s.moves = .host :: rest →
      step s = exec i { s with moves := rest, host := { s.host with pc := s.host.pc + 1 } })
    ∧ (s.moves = [] → step s = exec i { s with host := { s.host with pc := s.host.pc + 1 } })

/-- A move of the FSM, the BE or the ENG runs the command its unit has in progress (R29, R111, R112, R170; that exec is the
command's next step, and the move list, are the model's, log entries 1 and 3; that LASTCMD (R28) names the pending
engine command is deduced, log entry 21). -/
def Obligations.StepRunsTheCommandInProgress : Prop :=
  ∀ (s : State) (i : Instr) (rest : List Move),
    (s.moves = .fsm :: rest → s.phase = .issue → i.isFsm = true → s.cur = i.opcode →
      step s = exec i { s with moves := rest })
    ∧ (∀ c r : Byte, s.moves = .be c r :: rest → s.phase = .wait → i.isFsm = true → s.cur = i.opcode →
      step s = exec i { s with moves := rest, beAnswer := some ⟨c, r⟩ })
    ∧ (s.moves = .eng :: rest → s.engPending = true → i.isFsm = false → s.lastCmd = i.opcode →
      step s = exec i { s with moves := rest })

/-! ### Acceptance -/

/-- With the block idle, every I2C command that starts a transaction is accepted with its table's SEQ, in PHASE = ISSUE at K = 0, and a
receive clears RXLEN; nothing else changes (R92, R140, R142, R144, R146, R148). -/
def Obligations.I2cCommandsAreAccepted : Prop :=
  ∀ (i : Instr) (s : State), s.busy = false → startsTransaction i s →
    exec i s = .next { s with
      lastCmd := i.opcode, ovr := false, cur := i.opcode, seq := specSeq i s, phase := .issue, k := 0
      rxlen := if isReceive i then 0 else s.rxlen }

/-- RDBYTES with COUNT.N > 32 ends at its acceptance with code 6: no bus action, HELD unchanged (R146; that SEQ keeps its
value is the model's reading, log entry 8). -/
def Obligations.OverlongBurstEndsAtAcceptance : Prop :=
  ∀ s : State, s.busy = false → 32 < s.count.toNat →
    exec .rdbytes s = .next { s with
      lastCmd := 0x04, ovr := false, cur := 0x04, phase := .idle, k := 0, rxlen := 0, code := .errCount }

/-- BUSSTOP on a bus that is not held ends at its acceptance with code 0 (R148; that SEQ keeps its value is the model's reading,
log entry 8). -/
def Obligations.BusstopOnFreeBusEndsAtAcceptance : Prop :=
  ∀ s : State, s.busy = false → s.held = false →
    exec .busstop s = .next { s with
      lastCmd := 0x05, ovr := false, cur := 0x05, phase := .idle, k := 0, code := .ok }

/-- With the block idle, every engine command is accepted: ENG_PENDING <- 1, and its next step ends it with the block idle again, in
one atomic step with the bus untouched (R92, R170; LASTCMD names the pending command, log entry 21). -/
def Obligations.EngineCommandsEndInTheirNextStep : Prop :=
  ∀ (i : Instr) (s : State), i.isFsm = false → s.busy = false →
    exec i s = .next { s with lastCmd := i.opcode, ovr := false, engPending := true }
    ∧ ∃ t, exec i { s with lastCmd := i.opcode, ovr := false, engPending := true } = .next t
      ∧ t.busy = false ∧ t.busLog = s.busLog ∧ t.held = s.held

/-- A command written while another is in progress is turned away: OVR <- 1 and nothing else (R67, R70; log entry 1). -/
def Obligations.OtherCommandsAreTurnedAway : Prop :=
  ∀ (i : Instr) (s : State), s.busy = true →
    ¬(s.phase ≠ .idle ∧ s.cur = i.opcode) → ¬(s.engPending = true ∧ s.lastCmd = i.opcode) →
    exec i s = .next { s with ovr := true }

/-- An illegal opcode, when accepted, only latches the opcode, clears OVR and writes code 15; BUSY stays 0 (R94). -/
def Obligations.IllegalOpcodeOnlyWritesItsCode : Prop :=
  ∀ (s : State) (v : Word), s.busy = false →
    (v.toNat % 256 = 0 ∨ (0x06 ≤ v.toNat % 256 ∧ v.toNat % 256 ≤ 0x0F) ∨ 0x16 ≤ v.toNat % 256) →
    memWrite 0x000 4 v s = .next { s with lastCmd := BitVec.ofNat 8 v.toNat, ovr := false, code := .errIllegal }
    ∧ ({ s with lastCmd := BitVec.ofNat 8 v.toNat, ovr := false, code := .errIllegal } : State).busy = false
    ∧ StatusCode.errIllegal.bits = 15

/-! ### The steps of a transaction -/

/-- The FSM's issue step presents SEQ[K] to the BE and goes to WAIT; in WAIT it does nothing until an answer is there (R111; the
record of actions and the place of the answer are the model's own fields, log entries 9 and 10). -/
def Obligations.IssuePresentsTheActionAndWaits : Prop :=
  ∀ (i : Instr) (s : State) (st : SeqStep), i.isFsm = true → s.cur = i.opcode → s.seq[s.k]? = some st →
    (s.phase = .issue → exec i s = .next { s with busLog := st.action :: s.busLog, phase := .wait })
    ∧ (s.phase = .wait → s.beAnswer = none → exec i s = .next s)

/-- A step whose condition fails ends the command at once with its own code: no success effect, no further action, HELD, RXBUF and
RXLEN as they were (R119, R256; SEQ and CUR too, log entry 8). -/
def Obligations.FailedStepEndsTheCommand : Prop :=
  ∀ (i : Instr) (s : State) (a : BusAction) (e : List Byte) (f : StatusCode) (b : BeAnswer),
    i.isFsm = true → s.cur = i.opcode → s.phase = .wait → s.seq[s.k]? = some ⟨a, .oneOf e f⟩ →
    s.beAnswer = some b → b.cond ∉ e →
    exec i s = .next { s with code := f, phase := .idle, k := 0, beAnswer := none }

/-- A step that is not the last and meets its condition has its success effect and no other: START sets HELD, RECV number j writes
RXBUF[j], SEND nothing; then K advances by 1 and the FSM is to issue (R114, R115, R116). -/
def Obligations.MetStepAdvances : Prop :=
  ∀ (i : Instr) (s : State) (st : SeqStep) (b : BeAnswer),
    i.isFsm = true → s.cur = i.opcode → s.phase = .wait → s.seq[s.k]? = some st → s.k + 1 ≠ s.seq.length →
    s.beAnswer = some b → meets st b.cond →
    (st.action = .start →
      exec i s = .next { s with held := true, phase := .issue, k := s.k + 1, beAnswer := none })
    ∧ (∀ x, st.action = .send x →
      exec i s = .next { s with phase := .issue, k := s.k + 1, beAnswer := none })
    ∧ (∀ ack, st.action = .recv ack →
      ∃ rb, exec i s = .next { s with rxbuf := rb, phase := .issue, k := s.k + 1, beAnswer := none }
        ∧ ∀ (m : Nat) (h : m < 32),
            rb[m] = if m = ((s.seq.take s.k).filter SeqStep.isRecv).length then b.rxb else s.rxbuf[m])

/-- WRREG's last step: the STOP ends it with code 0 and the bus free, and nothing else changes (R140, R117, R118; SEQ and CUR
keep their values, log entry 8). -/
def Obligations.WrregCompletes : Prop :=
  ∀ (s : State) (b : BeAnswer), s.phase = .wait → s.cur = 0x01 → s.seq = specSeq .wrreg s → s.k = 4 →
    s.beAnswer = some b →
    exec .wrreg s = .next { s with code := .ok, phase := .idle, k := 0, held := false, beAnswer := none }

/-- SELREG's last step: with SELHOLD = 0 the STOP frees the bus, with SELHOLD = 1 the index byte's ACK ends it and HELD stays as it is
(R142; SEQ and CUR keep their values, log entry 8). -/
def Obligations.SelregCompletes : Prop :=
  ∀ (s : State) (b : BeAnswer), s.phase = .wait → s.cur = 0x02 → s.seq = specSeq .selreg s → s.beAnswer = some b →
    (s.selhold = false → s.k = 3 →
      exec .selreg s = .next { s with code := .ok, phase := .idle, k := 0, held := false, beAnswer := none })
    ∧ (s.selhold = true → s.k = 2 → b.cond = 0x28 →
      exec .selreg s = .next { s with code := .ok, phase := .idle, k := 0, beAnswer := none })

/-- RDBYTE's last step: RXLEN <- 1, code 0, the bus free (R144; SEQ and CUR keep their values, log entry 8). -/
def Obligations.RdbyteCompletes : Prop :=
  ∀ (s : State) (b : BeAnswer), s.phase = .wait → s.cur = 0x03 → s.seq = specSeq .rdbyte s → s.k = 3 →
    s.beAnswer = some b →
    exec .rdbyte s = .next
      { s with code := .ok, phase := .idle, k := 0, held := false, rxlen := 1, beAnswer := none }

/-- RDBYTES's last step: RXLEN <- max(1, N), code 0, the bus free (R146; SEQ and CUR keep their values, log entry 8). -/
def Obligations.RdbytesCompletes : Prop :=
  ∀ (s : State) (b : BeAnswer), s.phase = .wait → s.cur = 0x04 → s.seq = specSeq .rdbytes s → s.k = burst s + 2 →
    s.beAnswer = some b →
    exec .rdbytes s = .next
      { s with
        code := .ok, phase := .idle, k := 0, held := false, rxlen := BitVec.ofNat 8 (burst s), beAnswer := none }

/-- BUSSTOP's one step on a held bus: HELD <- 0 and code 0 (R148; SEQ and CUR keep their values, log entry 8). -/
def Obligations.BusstopCompletes : Prop :=
  ∀ (s : State) (b : BeAnswer), s.phase = .wait → s.cur = 0x05 → s.seq = specSeq .busstop s → s.k = 0 →
    s.beAnswer = some b →
    exec .busstop s = .next { s with code := .ok, phase := .idle, k := 0, held := false, beAnswer := none }

/-- Whole transactions that succeed: from any idle state, with answers that meet every row of the command's table, the command ends with
code 0, RXLEN and RXBUF hold the bytes in the order received, the bus is free unless SELREG was to hold it, the BE has seen the table's
actions in order, and nothing else has changed (R112 to R118, R140, R142, R144, R146, R148; that SEQ and CUR keep their values in
the idle block is deduced, log entry 8, and the record of actions is the model's own field, log entry 10). -/
def Obligations.TransactionsSucceedAsTheirTablesSay : Prop :=
  ∀ (i : Instr) (s : State) (as : List BeAnswer), s.busy = false → startsTransaction i s →
    List.Forall₂ (fun st (a : BeAnswer) => meets st a.cond) (specSeq i s) as →
    ∃ rb : Vector Byte 32,
      runCommand i as s = .next { s with
        lastCmd := i.opcode, ovr := false, cur := i.opcode, seq := specSeq i s, phase := .idle, k := 0
        code := .ok
        held := decide (i = .selreg) && s.selhold
        rxlen := if isReceive i then BitVec.ofNat 8 (bytesReceived i s) else s.rxlen
        rxbuf := rb
        beAnswer := none
        busLog := ((specSeq i s).map SeqStep.action).reverse ++ s.busLog }
      ∧ ∀ (m : Nat) (h : m < 32),
          some rb[m] = if m < bytesReceived i s then (as[m + 2]?).map BeAnswer.rxb else some s.rxbuf[m]

/-- Whole transactions that fail at row j of their table: the command ends there with that row's code, the BE has seen the actions up to
row j and none after, HELD is 1 unless it was the START that failed, RXLEN is 0 after a receive, and RXBUF holds the bytes received before
the failure (R119, R149, R34, R40, R41; that SEQ and CUR keep their values in the idle block is deduced, log entry 8, and the record of actions
is the model's own field, log entry 10). -/
def Obligations.TransactionsFailAsTheirTablesSay : Prop :=
  ∀ (i : Instr) (s : State) (as : List BeAnswer) (a : BusAction) (e : List Byte) (f : StatusCode) (b : BeAnswer),
    s.busy = false → startsTransaction i s →
    (specSeq i s)[as.length]? = some ⟨a, .oneOf e f⟩ → b.cond ∉ e →
    List.Forall₂ (fun st (a : BeAnswer) => meets st a.cond) ((specSeq i s).take as.length) as →
    ∃ rb : Vector Byte 32,
      runCommand i (as ++ [b]) s = .next { s with
        lastCmd := i.opcode, ovr := false, cur := i.opcode, seq := specSeq i s, phase := .idle, k := 0
        code := f
        held := if as.length = 0 then s.held else true
        rxlen := if isReceive i then 0 else s.rxlen
        rxbuf := rb
        beAnswer := none
        busLog := (((specSeq i s).take (as.length + 1)).map SeqStep.action).reverse ++ s.busLog }
      ∧ ∀ (m : Nat) (h : m < 32),
          some rb[m] = if isReceive i = true ∧ m + 2 < as.length then (as[m + 2]?).map BeAnswer.rxb else some s.rxbuf[m]

/-- Arbitration loss (0x38) and every code R113 does not name fail every step of every transaction but the STOP, and end the command with the
code of the step's own row: 1 at a START, its role's at a SEND, 5 at a RECV; no step gives arbitration loss a code of its own (R122, R115; SEQ
and CUR keep their values, log entry 8). -/
def Obligations.ArbitrationLossFailsEveryStep : Prop :=
  ∀ (i : Instr) (s : State) (st : SeqStep) (b : BeAnswer),
    InTransaction i s → s.phase = .wait → s.seq[s.k]? = some st → st.action ≠ .stop →
    s.beAnswer = some b → b.cond = 0x38 ∨ b.cond ∉ namedConditions →
    (∃ e : List Byte, st.check = .oneOf e (failureCode i s.k st.action) ∧ b.cond ∉ e)
    ∧ exec i s = .next { s with code := failureCode i s.k st.action, phase := .idle, k := 0, beAnswer := none }

/-! ### The engine

The spec gives the ENG no latch of its own: LASTCMD names the command that is pending (log entry 21). -/

/-- LDCALA with RXLEN ≥ 26: every field from its two bytes, H1 from byte 25, byte 24 not read; CALA, CALB and TFV; code 0; nothing else
(R172). -/
def Obligations.LdcalaDecodesBlockOne : Prop :=
  ∀ s : State, s.engPending = true → s.lastCmd = 0x10 → 26 ≤ s.rxlen.toNat →
    exec .ldcala s = .next { s with
      cal := { s.cal with
        t1 := s.rxbuf[1] ++ s.rxbuf[0], t2 := s.rxbuf[3] ++ s.rxbuf[2], t3 := s.rxbuf[5] ++ s.rxbuf[4]
        p1 := s.rxbuf[7] ++ s.rxbuf[6], p2 := s.rxbuf[9] ++ s.rxbuf[8], p3 := s.rxbuf[11] ++ s.rxbuf[10]
        p4 := s.rxbuf[13] ++ s.rxbuf[12], p5 := s.rxbuf[15] ++ s.rxbuf[14], p6 := s.rxbuf[17] ++ s.rxbuf[16]
        p7 := s.rxbuf[19] ++ s.rxbuf[18], p8 := s.rxbuf[21] ++ s.rxbuf[20], p9 := s.rxbuf[23] ++ s.rxbuf[22]
        h1 := s.rxbuf[25] }
      cala := true, calb := false, tfv := false, code := .ok, engPending := false }

/-- LDCALB with RXLEN ≥ 8 and CALA = 1: H4 and H5 share byte 4 and are 12-bit two's complement, H4 = 16 * b[3] + low nibble, H5 = 16 *
b[5] + high nibble; CALB and TFV; code 0; nothing else (R175, R176). -/
def Obligations.LdcalbDecodesBlockTwo : Prop :=
  ∀ s : State, s.engPending = true → s.lastCmd = 0x11 → 8 ≤ s.rxlen.toNat → s.cala = true →
    exec .ldcalb s = .next { s with
      cal := { s.cal with
        h2 := s.rxbuf[1] ++ s.rxbuf[0]
        h3 := s.rxbuf[2]
        h4 := BitVec.ofNat 12 (16 * s.rxbuf[3].toNat + s.rxbuf[4].toNat % 16)
        h5 := BitVec.ofNat 12 (16 * s.rxbuf[5].toNat + s.rxbuf[4].toNat / 16)
        h6 := s.rxbuf[6] }
      calb := true, tfv := false, code := .ok, engPending := false }

/-- LDRAWT with RXLEN ≥ 3: RAWT = byte0 * 4096 + byte1 * 16 + byte2 / 16; TFV <- 0; code 0; nothing else (R178). -/
def Obligations.LdrawtAssemblesTwentyBits : Prop :=
  ∀ s : State, s.engPending = true → s.lastCmd = 0x12 → 3 ≤ s.rxlen.toNat →
    exec .ldrawt s = .next { s with
      rawt := BitVec.ofNat 20 (s.rxbuf[0].toNat * 4096 + s.rxbuf[1].toNat * 16 + s.rxbuf[2].toNat / 16)
      tfv := false, code := .ok, engPending := false }

/-- LDRAWH with RXLEN ≥ 2: RAWH = byte0 * 256 + byte1; TFV unchanged; code 0; nothing else (R180). -/
def Obligations.LdrawhAssemblesSixteenBits : Prop :=
  ∀ s : State, s.engPending = true → s.lastCmd = 0x13 → 2 ≤ s.rxlen.toNat →
    exec .ldrawh s = .next { s with
      rawh := BitVec.ofNat 16 (s.rxbuf[0].toNat * 256 + s.rxbuf[1].toNat), code := .ok, engPending := false }

/-- COMPT with a complete calibration set: R191's formula, clamp and flags, TFINE unclamped, TFV <- 1, code 0, and nothing else (R191,
R192). -/
def Obligations.ComptComputesTheTemperature : Prop :=
  ∀ s : State, s.engPending = true → s.lastCmd = 0x14 → s.cala = true → s.calb = true →
    exec .compt s = .next { s with
      temp := BitVec.ofInt 32 (max (-4000) (min 8500 (specCenti (specFine s.rawt s.cal))))
      tfine := specFine s.rawt s.cal
      tclo := decide (specCenti (specFine s.rawt s.cal) < -4000)
      tchi := decide (8500 < specCenti (specFine s.rawt s.cal))
      tfv := true, code := .ok, engPending := false }

/-- COMPH with a complete calibration set and TFV = 1: R196's formula, clamp and flags, code 0, and nothing else (R196, R198). -/
def Obligations.ComphComputesTheHumidity : Prop :=
  ∀ s : State, s.engPending = true → s.lastCmd = 0x15 → s.cala = true → s.calb = true → s.tfv = true →
    exec .comph s = .next { s with
      hum := BitVec.ofInt 32 (max 0 (min 419430400 (specHumidity s.rawh s.tfine s.cal).toInt) / 4096)
      hclo := decide ((specHumidity s.rawh s.tfine s.cal).toInt < 0)
      hchi := decide (419430400 < (specHumidity s.rawh s.tfine s.cal).toInt)
      code := .ok, engPending := false }

/-- The engine's checks, in their fixed order: the first that fails gives the code, and the command then writes nothing but STATUS.CODE,
BUSY and ENG_PENDING (R171). -/
def Obligations.EngineChecksInOrder : Prop :=
  ∀ s : State, s.engPending = true →
    (s.lastCmd = 0x10 → s.rxlen.toNat < 26 → exec .ldcala s = .next { s with code := .errNoRx, engPending := false })
    ∧ (s.lastCmd = 0x11 → s.rxlen.toNat < 8 → exec .ldcalb s = .next { s with code := .errNoRx, engPending := false })
    ∧ (s.lastCmd = 0x12 → s.rxlen.toNat < 3 → exec .ldrawt s = .next { s with code := .errNoRx, engPending := false })
    ∧ (s.lastCmd = 0x13 → s.rxlen.toNat < 2 → exec .ldrawh s = .next { s with code := .errNoRx, engPending := false })
    ∧ (s.lastCmd = 0x11 → 8 ≤ s.rxlen.toNat → s.cala = false →
        exec .ldcalb s = .next { s with code := .errNoCal, engPending := false })
    ∧ (s.lastCmd = 0x14 → ¬(s.cala = true ∧ s.calb = true) →
        exec .compt s = .next { s with code := .errNoCal, engPending := false })
    ∧ (s.lastCmd = 0x15 → ¬(s.cala = true ∧ s.calb = true) →
        exec .comph s = .next { s with code := .errNoCal, engPending := false })
    ∧ (s.lastCmd = 0x15 → s.cala = true → s.calb = true → s.tfv = false →
        exec .comph s = .next { s with code := .errTfine, engPending := false })

/-- COMPT's results depend on RAWT and CAL_T1 to CAL_T3 alone, COMPH's on RAWH, TFINE and CAL_H1 to CAL_H6 alone (R199). -/
def Obligations.CompensationIsDeterministic : Prop :=
  (∀ s s' t t' : State, s.engPending = true → s'.engPending = true → s.lastCmd = 0x14 → s'.lastCmd = 0x14 →
    s.cala = true → s.calb = true → s'.cala = true → s'.calb = true →
    s.rawt = s'.rawt → s.cal.t1 = s'.cal.t1 → s.cal.t2 = s'.cal.t2 → s.cal.t3 = s'.cal.t3 →
    exec .compt s = .next t → exec .compt s' = .next t' →
    t.temp = t'.temp ∧ t.tfine = t'.tfine ∧ t.tclo = t'.tclo ∧ t.tchi = t'.tchi)
  ∧ (∀ s s' t t' : State, s.engPending = true → s'.engPending = true → s.lastCmd = 0x15 → s'.lastCmd = 0x15 →
    s.cala = true → s.calb = true → s'.cala = true → s'.calb = true → s.tfv = true → s'.tfv = true →
    s.rawh = s'.rawh → s.tfine = s'.tfine → s.cal.h1 = s'.cal.h1 → s.cal.h2 = s'.cal.h2 → s.cal.h3 = s'.cal.h3 →
    s.cal.h4 = s'.cal.h4 → s.cal.h5 = s'.cal.h5 → s.cal.h6 = s'.cal.h6 →
    exec .comph s = .next t → exec .comph s' = .next t' →
    t.hum = t'.hum ∧ t.hclo = t'.hclo ∧ t.hchi = t'.hchi)

/-- The clamps hold for every operand, wrapped intermediates included: the value COMPT writes to TEMP is in [-4000, 8500], the value COMPH
writes to HUM in [0, 102400] (R200). -/
def Obligations.CompensatedValuesStayInRange : Prop :=
  ∀ s t : State, s.engPending = true →
    (s.lastCmd = 0x14 → s.cala = true → s.calb = true → exec .compt s = .next t →
      -4000 ≤ t.temp.toInt ∧ t.temp.toInt ≤ 8500)
    ∧ (s.lastCmd = 0x15 → s.cala = true → s.calb = true → s.tfv = true → exec .comph s = .next t → t.hum.toNat ≤ 102400)

/-- No engine command touches the bus, the receive buffer or a register it does not write: whatever it answers, these are unchanged
(R170, R181, R192, R198, R96). -/
def Obligations.EngineCommandsFrame : Prop :=
  ∀ (i : Instr) (s t : State), i.isFsm = false → exec i s = .next t →
    t.phase = s.phase ∧ t.k = s.k ∧ t.seq = s.seq ∧ t.cur = s.cur ∧ t.held = s.held ∧ t.busLog = s.busLog
    ∧ t.rxlen = s.rxlen ∧ t.rxbuf = s.rxbuf ∧ t.dev = s.dev ∧ t.regidx = s.regidx ∧ t.wdata = s.wdata
    ∧ t.count = s.count ∧ t.selhold = s.selhold
    ∧ (i ≠ .ldrawt → t.rawt = s.rawt) ∧ (i ≠ .ldrawh → t.rawh = s.rawh)
    ∧ (i ≠ .compt → t.temp = s.temp ∧ t.tfine = s.tfine ∧ t.tclo = s.tclo ∧ t.tchi = s.tchi)
    ∧ (i ≠ .comph → t.hum = s.hum ∧ t.hclo = s.hclo ∧ t.hchi = s.hchi)
    ∧ (i ≠ .ldcala ∧ i ≠ .ldcalb → t.cal = s.cal ∧ t.calb = s.calb) ∧ (i ≠ .ldcala → t.cala = s.cala)

/-- No I2C command reads or writes RAWT, RAWH, TEMP, TFINE, HUM, the calibration set or the ENG flags: with other values there it does the
same, and leaves them (R150). -/
def Obligations.I2cCommandsIgnoreTheEngine : Prop :=
  ∀ (i : Instr) (s : State) (e : EngineFields), i.isFsm = true →
    exec i (withEngine e s) = mapNext (withEngine e) (exec i s)

/-- No I2C command writes an operand register; only a receive writes RXLEN, and only a RECV step writes RXBUF (R40, R41, R96). -/
def Obligations.I2cCommandsFrame : Prop :=
  ∀ (i : Instr) (s t : State), i.isFsm = true → exec i s = .next t →
    t.dev = s.dev ∧ t.regidx = s.regidx ∧ t.wdata = s.wdata ∧ t.count = s.count ∧ t.selhold = s.selhold
    ∧ t.engPending = s.engPending ∧ t.moves = s.moves ∧ t.host = s.host ∧ t.resets = s.resets
    ∧ (isReceive i = false → t.rxlen = s.rxlen)
    ∧ ((∀ st, s.seq[s.k]? = some st → ∀ ack, st.action ≠ .recv ack) → t.rxbuf = s.rxbuf)

/-- WRREG, accepted or in progress, writes nothing to the block other than STATUS.CODE, BUSY, HELD and OVR, LASTCMD, and the FSM's internal
state (R141); around the block, only the BE port. -/
def Obligations.WrregWritesOnlyItsOwnFields : Prop :=
  ∀ s t : State, s.busy = false ∨ InTransaction .wrreg s → exec .wrreg s = .next t →
    t = { s with
      code := t.code, held := t.held, ovr := t.ovr, lastCmd := t.lastCmd
      phase := t.phase, k := t.k, seq := t.seq, cur := t.cur
      beAnswer := t.beAnswer, busLog := t.busLog }

/-! ### The host port -/

/-- Writes while busy: the eight registers' writes set OVR and do nothing else, and every other write does nothing at all; OVR is cleared only
by a step that accepts a write to CMD, or by a reset (R67). -/
def Obligations.WritesWhileBusyAreIgnored : Prop :=
  (∀ (s : State) (off : Nat) (v : Word), s.busy = true → off % 4 = 0 → off < 0x200 →
    memWrite off 4 v s = .next (if off ∈ writableOffsets then { s with ovr := true } else s))
  ∧ ∀ s t : State, step s = .next t → s.ovr = true → t.ovr = false → (s.busy = false ∧ hostWrites s 0x000) ∨ resets s t

/-- Writes while idle: each R/W register stores the word's defined bits, a write to RAWT also clears TFV, and a write to any other offset
but CMD is ignored (R68, R36, R63). And the HOST's step at any write of its program, at any offset, idle or busy, is that write of the port,
made on the state that has moved past the operation (R66, R69; the move list is the model's own, log entry 3). -/
def Obligations.WritesWhileIdleStoreDefinedBits : Prop :=
  (∀ (s : State) (v : Word), s.busy = false →
    memWrite 0x008 4 v s = .next { s with dev := BitVec.ofNat 7 v.toNat }
    ∧ memWrite 0x00C 4 v s = .next { s with regidx := BitVec.ofNat 8 v.toNat }
    ∧ memWrite 0x010 4 v s = .next { s with wdata := BitVec.ofNat 8 v.toNat }
    ∧ memWrite 0x014 4 v s = .next { s with count := BitVec.ofNat 8 v.toNat }
    ∧ memWrite 0x01C 4 v s = .next { s with selhold := decide (v.toNat % 2 = 1) }
    ∧ memWrite 0x020 4 v s = .next { s with rawt := BitVec.ofNat 20 v.toNat, tfv := false }
    ∧ memWrite 0x024 4 v s = .next { s with rawh := BitVec.ofNat 16 v.toNat }
    ∧ ∀ off : Nat, off % 4 = 0 → off < 0x200 → off ∉ writableOffsets → memWrite off 4 v s = .next s)
  ∧ ∀ (s : State) (rest : List Move) (off : Int) (bytes : Nat) (v : Word),
    s.moves = .host :: rest → s.host.prog[s.host.pc]? = some (HostOp.w off bytes v) →
    step s = memWrite off bytes v { s with moves := rest, host := { s.host with pc := s.host.pc + 1 } }

/-- What each R/W register reads after a write while idle: the word masked to the register's defined bits; its reserved bits read 0
(R68, R63, R21 to R27). -/
def Obligations.ReadAfterWriteIsMasked : Prop :=
  ∀ (s t : State) (v : Word), s.busy = false →
    (memWrite 0x008 4 v s = .next t → memRead 0x008 4 t = .ok (v &&& 0x0000007F))
    ∧ (memWrite 0x00C 4 v s = .next t → memRead 0x00C 4 t = .ok (v &&& 0x000000FF))
    ∧ (memWrite 0x010 4 v s = .next t → memRead 0x010 4 t = .ok (v &&& 0x000000FF))
    ∧ (memWrite 0x014 4 v s = .next t → memRead 0x014 4 t = .ok (v &&& 0x000000FF))
    ∧ (memWrite 0x01C 4 v s = .next t → memRead 0x01C 4 t = .ok (v &&& 0x00000001))
    ∧ (memWrite 0x020 4 v s = .next t → memRead 0x020 4 t = .ok (v &&& 0x000FFFFF))
    ∧ (memWrite 0x024 4 v s = .next t → memRead 0x024 4 t = .ok (v &&& 0x0000FFFF))

/-- The STATUS word, bit by bit: CODE in [3:0] with the numbers of R251's table, BUSY 8, HELD 9, OVR 10, TCLO 12, TCHI 13, HCLO 14, HCHI 15, CALA 16, CALB 17, TFV 18, and
every reserved bit 0 (R31, R33, R251). -/
def Obligations.StatusWordLayout : Prop :=
  ∀ s : State, ∃ w : Word, memRead 0x004 4 s = .ok w
    ∧ w.toNat % 16 = codeNumber s.code
    ∧ w.getLsbD 8 = decide (s.phase ≠ .idle ∨ s.engPending = true)
    ∧ w.getLsbD 9 = s.held ∧ w.getLsbD 10 = s.ovr
    ∧ w.getLsbD 12 = s.tclo ∧ w.getLsbD 13 = s.tchi ∧ w.getLsbD 14 = s.hclo ∧ w.getLsbD 15 = s.hchi
    ∧ w.getLsbD 16 = s.cala ∧ w.getLsbD 17 = s.calb ∧ w.getLsbD 18 = s.tfv
    ∧ ∀ n, (4 ≤ n ∧ n ≤ 7) ∨ n = 11 ∨ 19 ≤ n → w.getLsbD n = false

/-- The register map's readable registers but STATUS, in any state, busy or not, as signed or unsigned numbers of the word read: the latch, the
operands and RXLEN zero-extended, the results whole, each calibration field with its own sign, RXBUF byte by byte (R62, R66, R21 to R28, R37 to
R43). -/
def Obligations.RegisterMapReads : Prop :=
  ∀ s : State,
    memRead 0x000 4 s = .ok (BitVec.ofNat 32 s.lastCmd.toNat) ∧ memRead 0x008 4 s = .ok (BitVec.ofNat 32 s.dev.toNat)
    ∧ memRead 0x00C 4 s = .ok (BitVec.ofNat 32 s.regidx.toNat) ∧ memRead 0x010 4 s = .ok (BitVec.ofNat 32 s.wdata.toNat)
    ∧ memRead 0x014 4 s = .ok (BitVec.ofNat 32 s.count.toNat)
    ∧ memRead 0x01C 4 s = .ok (if s.selhold then 0x00000001 else 0x00000000)
    ∧ memRead 0x020 4 s = .ok (BitVec.ofNat 32 s.rawt.toNat) ∧ memRead 0x024 4 s = .ok (BitVec.ofNat 32 s.rawh.toNat)
    ∧ memRead 0x018 4 s = .ok (BitVec.ofNat 32 s.rxlen.toNat)
    ∧ memRead 0x028 4 s = .ok s.temp ∧ memRead 0x02C 4 s = .ok s.tfine ∧ memRead 0x030 4 s = .ok s.hum
    ∧ memRead 0x040 4 s = .ok (BitVec.ofNat 32 s.cal.t1.toNat) ∧ memRead 0x044 4 s = .ok (BitVec.ofInt 32 s.cal.t2.toInt)
    ∧ memRead 0x048 4 s = .ok (BitVec.ofInt 32 s.cal.t3.toInt) ∧ memRead 0x04C 4 s = .ok (BitVec.ofNat 32 s.cal.p1.toNat)
    ∧ memRead 0x050 4 s = .ok (BitVec.ofInt 32 s.cal.p2.toInt) ∧ memRead 0x054 4 s = .ok (BitVec.ofInt 32 s.cal.p3.toInt)
    ∧ memRead 0x058 4 s = .ok (BitVec.ofInt 32 s.cal.p4.toInt) ∧ memRead 0x05C 4 s = .ok (BitVec.ofInt 32 s.cal.p5.toInt)
    ∧ memRead 0x060 4 s = .ok (BitVec.ofInt 32 s.cal.p6.toInt) ∧ memRead 0x064 4 s = .ok (BitVec.ofInt 32 s.cal.p7.toInt)
    ∧ memRead 0x068 4 s = .ok (BitVec.ofInt 32 s.cal.p8.toInt) ∧ memRead 0x06C 4 s = .ok (BitVec.ofInt 32 s.cal.p9.toInt)
    ∧ memRead 0x070 4 s = .ok (BitVec.ofNat 32 s.cal.h1.toNat) ∧ memRead 0x074 4 s = .ok (BitVec.ofInt 32 s.cal.h2.toInt)
    ∧ memRead 0x078 4 s = .ok (BitVec.ofNat 32 s.cal.h3.toNat) ∧ memRead 0x07C 4 s = .ok (BitVec.ofInt 32 s.cal.h4.toInt)
    ∧ memRead 0x080 4 s = .ok (BitVec.ofInt 32 s.cal.h5.toInt) ∧ memRead 0x084 4 s = .ok (BitVec.ofInt 32 s.cal.h6.toInt)
    ∧ ∀ (i : Nat) (h : i < 32), memRead (0x100 + 4 * i) 4 s = .ok (BitVec.ofNat 32 s.rxbuf[i].toNat)

/-- Reserved offsets read 0, and a write to one changes nothing, whether or not the block is busy (R63). -/
def Obligations.ReservedOffsetsReadZero : Prop :=
  ∀ (s : State) (off : Nat) (v : Word), off % 4 = 0 → reservedOffset off →
    memRead off 4 s = .ok 0 ∧ memWrite off 4 v s = .next s

/-- An access that is not 4 bytes wide, not 4-byte aligned or outside the window is refused, read or write, and so is the HOST's step that
makes it (R64; that the refusal ends the whole machine's run, where R64 leaves the HOST alone stuck, is deduced, log entry 11). -/
def Obligations.BadAccessesAreRefused : Prop :=
  ∀ (s : State) (off : Int) (bytes name : Nat) (v : Word), bytes ≠ 4 ∨ off % 4 ≠ 0 ∨ off < 0 ∨ 0x200 ≤ off →
    ∃ r : Refusal, hostProgramRefusal r = true ∧ memWrite off bytes v s = .refused r ∧ memRead off bytes s = .error r
      ∧ ∀ rest, s.moves = .host :: rest →
          (s.host.prog[s.host.pc]? = some (HostOp.w off bytes v) → step s = .refused r)
          ∧ (s.host.prog[s.host.pc]? = some (HostOp.r off bytes name) → step s = .refused r)

/-- A host read has no side effect on the block: the HOST alone changes, and the name it read into holds the register's value (R66). -/
def Obligations.ReadsChangeOnlyTheHost : Prop :=
  ∀ (s : State) (rest : List Move) (off : Int) (name : Nat) (w : Word),
    s.moves = .host :: rest → s.host.prog[s.host.pc]? = some (HostOp.r off 4 name) → memRead off 4 s = .ok w →
    ∃ h : HostAgent, step s = .next { s with moves := rest, host := h } ∧ h.vars.lookup name = some w
      ∧ h.pc = s.host.pc + 1 ∧ h.prog = s.host.prog

/-- Address decoding for every legal BASE: at the byte address BASE + off of any word of the window, address bits [8:2] are the word index, and
the port's read and write at that address are those of the register at that word of the map, whatever BASE is (R61, R62; that an access
carries its offset from BASE is the model's form, log entry 5). -/
def Obligations.AddressBitsGiveTheWordIndex : Prop :=
  ∀ (s : State) (v : Word) (off : Nat), off % 4 = 0 → off < 0x200 →
    Config.base % 0x200 = 0
    ∧ wordIndex (Config.base + off) = (Config.base + off) / 2 ^ 2 % 2 ^ 7 ∧ 4 * wordIndex (Config.base + off) = off
    ∧ memRead (offsetOf (Config.base + off)) 4 s = .ok (readReg (regAt (4 * wordIndex (Config.base + off))) s)
    ∧ memWrite (offsetOf (Config.base + off)) 4 v s = writeReg (regAt (4 * wordIndex (Config.base + off))) v s

/-! ### Reset -/

/-- The state after reset is R50's table, RXBUF a free draw (an opaque constant at each index, log entry 4). -/
def Obligations.ResetValuesAreTheTables : Prop :=
  let s := State.reset
  s.dev = 0 ∧ s.regidx = 0 ∧ s.wdata = 0 ∧ s.count = 0 ∧ s.selhold = false ∧ s.rawt = 0 ∧ s.rawh = 0
  ∧ s.lastCmd = 0x00 ∧ s.code = .ok ∧ s.busy = false ∧ s.held = false ∧ s.ovr = false
  ∧ s.tclo = false ∧ s.tchi = false ∧ s.hclo = false ∧ s.hchi = false ∧ s.cala = false ∧ s.calb = false ∧ s.tfv = false
  ∧ s.temp = 0 ∧ s.tfine = 0 ∧ s.hum = 0 ∧ s.rxlen = 0
  ∧ s.cal = ⟨0, 0, 0, 0, 0, 0, 0, 0, 0, 0, 0, 0, 0, 0, 0, 0, 0, 0⟩
  ∧ s.phase = .idle ∧ s.k = 0 ∧ s.seq = [] ∧ s.cur = 0x00 ∧ s.engPending = false
  ∧ memRead 0x004 4 s = .ok 0
  ∧ ∀ (i : Nat) (h : i < 32), s.rxbuf[i] = Config.rxbufDraw 0 i

/-- A reset at any moment, in a transaction or with an engine command pending, abandons it: no bus action, no STOP, HELD reads 0, none of
its results are written, and the block is idle with R50's values (R280, R281, R282; that the agents around the block, the record
of actions and the count of resets are not reset is the model's choice, log entries 4 and 14). -/
def Obligations.ResetAbandonsEverything : Prop :=
  ∀ (s : State) (rest : List Move), s.moves = .reset :: rest →
    ∃ rb : Vector Byte 32,
      step s = .next { State.reset with
        rxbuf := rb, resets := s.resets + 1, busLog := s.busLog, moves := rest, host := s.host }
      ∧ ∀ (i : Nat) (h : i < 32), rb[i] = Config.rxbufDraw (s.resets + 1) i

/-! ### Whole-machine rules -/

/-- Every step keeps the invariant of the two units. -/
def Obligations.StepKeepsControlInv : Prop :=
  ∀ s t : State, ControlInv s → step s = .next t → ControlInv t

/-- The invariant of the two units holds after reset. -/
def Obligations.ResetHasControlInv : Prop := ControlInv State.reset

/-- Every step keeps the results in their ranges and opposite clamp flags apart (R37, R39, R200). -/
def Obligations.StepKeepsRangeInv : Prop :=
  ∀ s t : State, RangeInv s → step s = .next t → RangeInv t

/-- Every step keeps TFV's and CALB's promises: a valid TFINE is that of the present RAWT and the present, complete set (R36, R45). -/
def Obligations.StepKeepsFreshInv : Prop :=
  ∀ s t : State, FreshInv s → step s = .next t → FreshInv t

/-- The ranges and the promises of TFV and CALB hold after reset. -/
def Obligations.ResetHasRangeAndFreshInv : Prop := RangeInv State.reset ∧ FreshInv State.reset

/-- No step of a state with the unit invariant faults, and one is refused only for the host program's own doing: "The block never
aborts in any other way" (R250; the faults and refusals are the model's, log entries 2, 11 and 13). -/
def Obligations.StepsNeverFault : Prop :=
  ∀ s : State, ControlInv s → SafeOutcome (step s)

/-- The hang: in WAIT, whatever the HOST does and however long, as long as the BE does not answer and no reset comes, the FSM stays in WAIT
with BUSY = 1, and the block is as it was but for OVR (R112, R258, R294; which agents move is the model's move list, log entry 3). -/
def Obligations.UnansweredActionHangsForEver : Prop :=
  ∀ (n : Nat) (s t : State), ControlInv s → s.phase = .wait → (∀ m ∈ s.moves, noAnswerNoReset m) →
    Host.Core.run Sys2Proof.core n s = .next t →
    t = { s with ovr := t.ovr, moves := t.moves, host := t.host } ∧ t.busy = true

/-- What writes HELD: only the BE's answer in WAIT that meets the condition of a START step, which sets it, or of a STOP step, which clears it,
and a reset, which clears it. And whenever such an answer comes it does so, while an answer that fails its step, a START among them, leaves
HELD as it is (R34; the BE's answer is the planned move, log entry 3). -/
def Obligations.HeldChangesOnlyAtStartAndStop : Prop :=
  (∀ s t : State, step s = .next t → t.held ≠ s.held →
    (∃ (c r : Byte) (rest : List Move) (st : SeqStep),
      s.moves = .be c r :: rest ∧ s.phase = .wait ∧ s.seq[s.k]? = some st ∧ meets st c
        ∧ ((st.action = .start ∧ t.held = true) ∨ (st.action = .stop ∧ t.held = false)))
    ∨ (resets s t ∧ t.held = false))
  ∧ ∀ (s t : State) (c r : Byte) (rest : List Move) (st : SeqStep),
    s.moves = .be c r :: rest → s.phase = .wait → s.seq[s.k]? = some st → step s = .next t →
    (meets st c → st.action = .start → t.held = true) ∧ (meets st c → st.action = .stop → t.held = false)
    ∧ (¬meets st c → t.held = s.held)

/-- What writes TFV: it is set only by a COMPT that ends with code 0, and cleared only by a write to RAWT while idle, an LDRAWT, LDCALA or
LDCALB that ends with code 0, or a reset (R36). -/
def Obligations.TfvChangesOnlyAsListed : Prop :=
  ∀ s t : State, step s = .next t →
    (s.tfv = false → t.tfv = true → engineEnds 0x14 s t)
    ∧ (s.tfv = true → t.tfv = false →
        (s.busy = false ∧ hostWrites s 0x020) ∨ engineEnds 0x12 s t ∨ engineEnds 0x10 s t ∨ engineEnds 0x11 s t ∨ resets s t)

/-- What writes the results and the calibration set: TEMP and TFINE change only when COMPT ends with code 0, HUM only when COMPH does, the
calibration set only when LDCALA or LDCALB does, or at a reset; and a completing step leaves the ENG idle in the same step (R37 to R39, R42,
R43, R71). -/
def Obligations.ResultsChangeOnlyAtCompletion : Prop :=
  ∀ s t : State, step s = .next t →
    (t.temp ≠ s.temp ∨ t.tfine ≠ s.tfine → engineEnds 0x14 s t ∨ resets s t)
    ∧ (t.hum ≠ s.hum → engineEnds 0x15 s t ∨ resets s t)
    ∧ (t.cal ≠ s.cal → engineEnds 0x10 s t ∨ engineEnds 0x11 s t ∨ resets s t)

/-- While the block is busy, no step but a reset changes an operand register that a transaction reads, LASTCMD, or SEQ and CUR, which the step
that ends the command keeps as well (R28, R30, R67; the latter is deduced, log entry 8). And STATUS.CODE keeps its value while the block stays
busy, in every state with the invariant of the two units (R32, R33). -/
def Obligations.OperandsStayConstantWhileBusy : Prop :=
  ∀ s t : State, s.busy = true → step s = .next t → ¬resets s t →
    (t.dev = s.dev ∧ t.regidx = s.regidx ∧ t.wdata = s.wdata ∧ t.count = s.count ∧ t.selhold = s.selhold
      ∧ t.lastCmd = s.lastCmd ∧ t.seq = s.seq ∧ t.cur = s.cur)
    ∧ (ControlInv s → t.busy = true → t.code = s.code)

/-- One command at a time: BUSY goes from 0 to 1 only by the HOST's write to CMD, and that write is what LASTCMD then names
(R70, R92). -/
def Obligations.OnlyACommandWriteMakesTheBlockBusy : Prop :=
  ∀ s t : State, step s = .next t → s.busy = false → t.busy = true →
    ∃ (v : Word) (i : Instr), s.host.prog[s.host.pc]? = some (HostOp.w 0x000 4 v) ∧ decode v = .ok i ∧ t.lastCmd = i.opcode

/-! ### The reference host -/

/-- Oversampling: the six values have their codes, every other value that of ×1 (R225); the delay is the table's entry for the number of
active channels (R227, R228). -/
def Obligations.OversamplingAndDelay : Prop :=
  (∀ o : Nat, encodeOversampling o =
    if o = 0 then 0b000 else if o = 2 then 0b010 else if o = 4 then 0b011 else if o = 8 then 0b100
    else if o = 16 then 0b101 else 0b001)
  ∧ ∀ oT oP oH : Nat,
    measurementDelay (activeChannels (encodeOversampling oT) (encodeOversampling oP) (encodeOversampling oH)) =
      match ([oT, oP, oH].filter (fun o => o != 0)).length with
      | 0 => 0
      | 1 => Config.delayShort
      | 2 => Config.delayMedium
      | _ => Config.delayLong

/-- A failing procedure writes one host status and returns, and its caller decides (R233). Where an EXEC of a procedure has ended: with
CODE 0 the HOST goes to the next operation; with another CODE it records the procedure's status and that CODE, and goes on where the
caller does, or stays at the return if it has no caller. So it does at `initialize`'s comparison of a wrong identity byte, with ID_MISMATCH
and no WRREG (R222, R223). A caller that recovers then issues BUSSTOP and repeats the whole procedure. In all of it the block is as it was
(the HOST's moves with none planned, its places, the recorded code and the forms of call, return and policy are the model's, log entries 3,
16, 17 and 24). -/
def Obligations.FailedProcedureReturnsToItsCaller : Prop :=
  (∀ (s : State) (i : Instr) (st : HostStatus) (front back : List HostOp) (x : Word),
    s.busy = false → s.moves = [] → s.host.prog = front ++ hostExecOr i st ++ back → s.host.pc = front.length + 3 →
    readVar s.host.vars nameS = some x →
    (x.toNat % 16 = 0 → step s = .next { s with host := { s.host with pc := front.length + 6 } })
    ∧ (x.toNat % 16 ≠ 0 → ∀ u : HostAgent, u = { s.host with status := some st, blockCode := BitVec.ofNat 4 x.toNat } →
        (∀ place rest, s.host.returns = place :: rest →
          Host.Core.run Sys2Proof.core 3 s = .next { s with host := { u with pc := place, returns := rest } })
        ∧ (s.host.returns = [] → ∀ n,
          Host.Core.run Sys2Proof.core (n + 2) s = .next { s with host := { u with pc := front.length + 5 } })))
  ∧ (∀ (s : State) (p : SensorParams) (startup : Option Nat) (front back : List HostOp) (x w : Word),
    s.busy = false → s.moves = [] → s.host.prog = front ++ initializeProc p startup ++ back → s.host.pc = front.length + 15 →
    readVar s.host.vars nameS = some x → readVar s.host.vars nameId = some w → w.toNat % 256 ≠ p.chipId.toNat →
    ∀ u : HostAgent, u = { s.host with status := some .idMismatch, blockCode := BitVec.ofNat 4 x.toNat } →
    (∀ place rest, s.host.returns = place :: rest →
      Host.Core.run Sys2Proof.core 3 s = .next { s with host := { u with pc := place, returns := rest } })
    ∧ (s.host.returns = [] → ∀ n,
      Host.Core.run Sys2Proof.core (n + 2) s = .next { s with host := { u with pc := front.length + 17 } }))
  ∧ ∀ (s : State) (good : HostStatus) (proc front back : List HostOp) (times : Nat),
    s.busy = false → s.moves = [] → s.host.prog = front ++ callUnder (.recoverable (times + 1)) good proc ++ back →
    (s.host.pc = front.length →
      step s = .next { s with host := { s.host with
        pc := front.length + 1, returns := (front.length + 1 + proc.length) :: s.host.returns } })
    ∧ (s.host.pc = front.length + 1 + proc.length → s.host.status ≠ some good →
      Host.Core.run Sys2Proof.core 2 s = exec .busstop { s with host := { s.host with pc := front.length + proc.length + 3 } }
      ∧ s.host.prog.drop (front.length + proc.length + 5) = callUnder (.recoverable times) good proc ++ back)
end

