-- ==== Sys2Proof/Laws/Arith.lean ====
section
/-! SUPPORT. The engine's s32 operators, which follow R10 word for word over Int, are the native BitVec operations; and what the
clamps of R191 and R196 can give. -/

namespace Sys2Proof.Machine

theorem add32_eq (a b : Word) : add32 a b = a + b := by
  simp [add32, wrap32, BitVec.ofInt_add]

theorem sub32_eq (a b : Word) : sub32 a b = a - b := by
  apply BitVec.eq_of_toInt_eq
  simp [sub32, wrap32, BitVec.toInt_ofInt, BitVec.toInt_sub]

theorem mul32_eq (a b : Word) : mul32 a b = a * b := by
  simp [mul32, wrap32, BitVec.ofInt_mul]

theorem shl32_eq (a : Word) (n : Nat) : shl32 a n = a <<< n := by
  have h : BitVec.ofInt 32 (2 ^ n) = BitVec.twoPow 32 n := by
    apply BitVec.eq_of_toNat_eq
    rw [BitVec.toNat_twoPow, BitVec.toNat_ofInt]
    norm_cast
  simp only [shl32, wrap32, BitVec.ofInt_mul, BitVec.ofInt_toInt, h]
  rw [BitVec.shiftLeft_eq_mul_twoPow]

theorem asr32_eq (a : Word) (n : Nat) : asr32 a n = a.sshiftRight n := by
  simp [asr32, wrap32, BitVec.sshiftRight, Int.shiftRight_eq_div_pow]

/-- Narrowing a number that fits leaves it as it is (R9). -/
theorem toInt_wrap32 {x : Int} (h1 : -2147483648 ≤ x) (h2 : x ≤ 2147483647) : (wrap32 x).toInt = x := by
  rw [wrap32, BitVec.toInt_ofInt]
  exact Int.bmod_eq_of_le (by omega) (by omega)

/-- A clamp's result lies between its bounds, whatever it is given (R10, R200). -/
theorem clamp32_range {lo hi : Int} (v : Word) (h : lo ≤ hi) (hlo : -2147483648 ≤ lo) (hhi : hi ≤ 2147483647) :
    lo ≤ (clamp32 lo hi v).toInt ∧ (clamp32 lo hi v).toInt ≤ hi := by
  unfold clamp32
  split
  · rw [toInt_wrap32] <;> omega
  · split
    · rw [toInt_wrap32] <;> omega
    · omega

/-- The arithmetic right shift of a number by n is the floor of its quotient by 2^n, exactly: no wrap is left (R10). -/
theorem toInt_asr32 (a : Word) (n : Nat) : (asr32 a n).toInt = a.toInt / 2 ^ n := by
  rw [asr32_eq, BitVec.toInt_sshiftRight, Int.shiftRight_eq_div_pow]
  norm_cast

/-- The two clamp flags of one value exclude each other (R31). -/
theorem clampedLow_clampedHigh {lo hi : Int} (v : Word) (h : lo ≤ hi) :
    ¬(clampedLow lo v = true ∧ clampedHigh hi v = true) := by
  simp only [clampedLow, clampedHigh, decide_eq_true_eq]
  omega

end Sys2Proof.Machine
end

