-- ==== Sys2Proof/Laws/Codes.lean ====
section
/-! SUPPORT. The lemmas of the decoder and the encoder (spec/30_encoding.md R90 to R98). -/

namespace Sys2Proof

/-- A row with mask 0xFF looks at the OPCODE alone (R91). -/
theorem and_ff_eq (v : Word) : v &&& 0x000000FF = (opcodeField v).setWidth 32 := by
  ext i hi
  simp only [opcodeField, BitVec.getElem_and, BitVec.getElem_setWidth, BitVec.getLsbD_extractLsb']
  have : ∀ j : Fin 32, (0x000000FF#32).getLsbD j = decide ((j : Nat) < 8) := by decide
  have h := this ⟨i, hi⟩
  rw [BitVec.getLsbD_eq_getElem hi] at h
  simp [h, BitVec.getLsbD_eq_getElem hi, Bool.and_comm]

@[simp] theorem opcodeField_setWidth (op : Byte) : opcodeField (op.setWidth 32) = op := by
  apply BitVec.eq_of_toNat_eq
  simp only [opcodeField, BitVec.extractLsb'_toNat, BitVec.toNat_setWidth]
  omega

/-- "A CMD32 word uses only [7:0]" (R91): the decoder's answer is that of the OPCODE alone. -/
theorem decode_eq_decodeOpcode (v : Word) : decode v = decodeOpcode (opcodeField v) := by
  have hrow : ∀ r : OpcodeRow, r.mask = 0xFF → r.hits v = r.hits ((opcodeField v).setWidth 32) := by
    intro r hr
    simp only [OpcodeRow.hits, hr, and_ff_eq, opcodeField_setWidth]
  have hfind : ∀ l : List OpcodeRow, (∀ r ∈ l, r.mask = 0xFF) →
      l.find? (·.hits v) = l.find? (·.hits ((opcodeField v).setWidth 32)) := by
    intro l hl
    induction l with
    | nil => rfl
    | cons r l ih =>
      simp only [List.find?_cons, hrow r (hl r (by simp)), ih (fun r hr => hl r (by simp [hr]))]
  simp only [decodeOpcode, decode, hfind opcodeTable (by decide), opcodeField_setWidth]

/-- What the decoder must answer for an OPCODE (R93, R94): a command exactly where it is legal, the command of that OPCODE. -/
def decodesRight (op : Byte) : Bool :=
  match decodeOpcode op with
  | .ok i => legalOpcode op && i.opcode == op
  | .error e => !legalOpcode op && e == .illegalOpcode op

theorem decodesRight_all : ∀ n : Fin 256, decodesRight (BitVec.ofFin n) = true := by decide +kernel

theorem decodeOpcode_ok {op : Byte} {i : Instr} (h : decodeOpcode op = .ok i) : i.opcode = op ∧ legalOpcode op = true := by
  have := decodesRight_all op.toFin
  simp_all [decodesRight]

theorem decodeOpcode_error {op : Byte} {e : DecodeError} (h : decodeOpcode op = .error e) :
    e = .illegalOpcode op ∧ legalOpcode op = false := by
  have := decodesRight_all op.toFin
  simp_all [decodesRight]

@[simp] theorem decodeOpcode_opcode (i : Instr) : decodeOpcode i.opcode = .ok i := by
  cases i <;> decide

/-- The OPCODE of an encoded command, whatever its ignored bits are (R91). -/
@[simp] theorem opcodeField_encodeWith (g : BitVec 24) (i : Instr) : opcodeField (encodeWith g i) = i.opcode := by
  simp only [opcodeField, encodeWith]
  exact BitVec.extractLsb'_append_eq_right

/-- An illegal word is rejected by the value of its OPCODE (R94). -/
theorem decode_error {v : Word} {e : DecodeError} (h : decode v = .error e) : e = .illegalOpcode (opcodeField v) := by
  rw [decode_eq_decodeOpcode] at h
  exact (decodeOpcode_error h).1

end Sys2Proof
end

