-- ==== Sys2Proof/Laws/State.lean ====
section
/-! SUPPORT. One lemma per field of State for each named update, true by rfl, so that no proof unfolds a record update. -/

namespace Sys2Proof.Machine

section finishFsm

variable (c : StatusCode) (s : State)

@[simp] theorem finishFsm_dev : (finishFsm c s).dev = s.dev := rfl
@[simp] theorem finishFsm_regidx : (finishFsm c s).regidx = s.regidx := rfl
@[simp] theorem finishFsm_wdata : (finishFsm c s).wdata = s.wdata := rfl
@[simp] theorem finishFsm_count : (finishFsm c s).count = s.count := rfl
@[simp] theorem finishFsm_selhold : (finishFsm c s).selhold = s.selhold := rfl
@[simp] theorem finishFsm_rawt : (finishFsm c s).rawt = s.rawt := rfl
@[simp] theorem finishFsm_rawh : (finishFsm c s).rawh = s.rawh := rfl
@[simp] theorem finishFsm_lastCmd : (finishFsm c s).lastCmd = s.lastCmd := rfl
@[simp] theorem finishFsm_code : (finishFsm c s).code = c := rfl
@[simp] theorem finishFsm_held : (finishFsm c s).held = s.held := rfl
@[simp] theorem finishFsm_ovr : (finishFsm c s).ovr = s.ovr := rfl
@[simp] theorem finishFsm_tclo : (finishFsm c s).tclo = s.tclo := rfl
@[simp] theorem finishFsm_tchi : (finishFsm c s).tchi = s.tchi := rfl
@[simp] theorem finishFsm_hclo : (finishFsm c s).hclo = s.hclo := rfl
@[simp] theorem finishFsm_hchi : (finishFsm c s).hchi = s.hchi := rfl
@[simp] theorem finishFsm_cala : (finishFsm c s).cala = s.cala := rfl
@[simp] theorem finishFsm_calb : (finishFsm c s).calb = s.calb := rfl
@[simp] theorem finishFsm_tfv : (finishFsm c s).tfv = s.tfv := rfl
@[simp] theorem finishFsm_rxlen : (finishFsm c s).rxlen = s.rxlen := rfl
@[simp] theorem finishFsm_rxbuf : (finishFsm c s).rxbuf = s.rxbuf := rfl
@[simp] theorem finishFsm_temp : (finishFsm c s).temp = s.temp := rfl
@[simp] theorem finishFsm_tfine : (finishFsm c s).tfine = s.tfine := rfl
@[simp] theorem finishFsm_hum : (finishFsm c s).hum = s.hum := rfl
@[simp] theorem finishFsm_cal : (finishFsm c s).cal = s.cal := rfl
@[simp] theorem finishFsm_phase : (finishFsm c s).phase = .idle := rfl
@[simp] theorem finishFsm_k : (finishFsm c s).k = 0 := rfl
@[simp] theorem finishFsm_seq : (finishFsm c s).seq = s.seq := rfl
@[simp] theorem finishFsm_cur : (finishFsm c s).cur = s.cur := rfl
@[simp] theorem finishFsm_engPending : (finishFsm c s).engPending = s.engPending := rfl
@[simp] theorem finishFsm_beAnswer : (finishFsm c s).beAnswer = s.beAnswer := rfl
@[simp] theorem finishFsm_busLog : (finishFsm c s).busLog = s.busLog := rfl
@[simp] theorem finishFsm_moves : (finishFsm c s).moves = s.moves := rfl
@[simp] theorem finishFsm_host : (finishFsm c s).host = s.host := rfl
@[simp] theorem finishFsm_resets : (finishFsm c s).resets = s.resets := rfl

end finishFsm

section finishEng

variable (c : StatusCode) (s : State)

@[simp] theorem finishEng_dev : (finishEng c s).dev = s.dev := rfl
@[simp] theorem finishEng_regidx : (finishEng c s).regidx = s.regidx := rfl
@[simp] theorem finishEng_wdata : (finishEng c s).wdata = s.wdata := rfl
@[simp] theorem finishEng_count : (finishEng c s).count = s.count := rfl
@[simp] theorem finishEng_selhold : (finishEng c s).selhold = s.selhold := rfl
@[simp] theorem finishEng_rawt : (finishEng c s).rawt = s.rawt := rfl
@[simp] theorem finishEng_rawh : (finishEng c s).rawh = s.rawh := rfl
@[simp] theorem finishEng_lastCmd : (finishEng c s).lastCmd = s.lastCmd := rfl
@[simp] theorem finishEng_code : (finishEng c s).code = c := rfl
@[simp] theorem finishEng_held : (finishEng c s).held = s.held := rfl
@[simp] theorem finishEng_ovr : (finishEng c s).ovr = s.ovr := rfl
@[simp] theorem finishEng_tclo : (finishEng c s).tclo = s.tclo := rfl
@[simp] theorem finishEng_tchi : (finishEng c s).tchi = s.tchi := rfl
@[simp] theorem finishEng_hclo : (finishEng c s).hclo = s.hclo := rfl
@[simp] theorem finishEng_hchi : (finishEng c s).hchi = s.hchi := rfl
@[simp] theorem finishEng_cala : (finishEng c s).cala = s.cala := rfl
@[simp] theorem finishEng_calb : (finishEng c s).calb = s.calb := rfl
@[simp] theorem finishEng_tfv : (finishEng c s).tfv = s.tfv := rfl
@[simp] theorem finishEng_rxlen : (finishEng c s).rxlen = s.rxlen := rfl
@[simp] theorem finishEng_rxbuf : (finishEng c s).rxbuf = s.rxbuf := rfl
@[simp] theorem finishEng_temp : (finishEng c s).temp = s.temp := rfl
@[simp] theorem finishEng_tfine : (finishEng c s).tfine = s.tfine := rfl
@[simp] theorem finishEng_hum : (finishEng c s).hum = s.hum := rfl
@[simp] theorem finishEng_cal : (finishEng c s).cal = s.cal := rfl
@[simp] theorem finishEng_phase : (finishEng c s).phase = s.phase := rfl
@[simp] theorem finishEng_k : (finishEng c s).k = s.k := rfl
@[simp] theorem finishEng_seq : (finishEng c s).seq = s.seq := rfl
@[simp] theorem finishEng_cur : (finishEng c s).cur = s.cur := rfl
@[simp] theorem finishEng_engPending : (finishEng c s).engPending = false := rfl
@[simp] theorem finishEng_beAnswer : (finishEng c s).beAnswer = s.beAnswer := rfl
@[simp] theorem finishEng_busLog : (finishEng c s).busLog = s.busLog := rfl
@[simp] theorem finishEng_moves : (finishEng c s).moves = s.moves := rfl
@[simp] theorem finishEng_host : (finishEng c s).host = s.host := rfl
@[simp] theorem finishEng_resets : (finishEng c s).resets = s.resets := rfl

end finishEng

section ignoredWrite

variable (s : State)

@[simp] theorem ignoredWrite_dev : (ignoredWrite s).dev = s.dev := rfl
@[simp] theorem ignoredWrite_regidx : (ignoredWrite s).regidx = s.regidx := rfl
@[simp] theorem ignoredWrite_wdata : (ignoredWrite s).wdata = s.wdata := rfl
@[simp] theorem ignoredWrite_count : (ignoredWrite s).count = s.count := rfl
@[simp] theorem ignoredWrite_selhold : (ignoredWrite s).selhold = s.selhold := rfl
@[simp] theorem ignoredWrite_rawt : (ignoredWrite s).rawt = s.rawt := rfl
@[simp] theorem ignoredWrite_rawh : (ignoredWrite s).rawh = s.rawh := rfl
@[simp] theorem ignoredWrite_lastCmd : (ignoredWrite s).lastCmd = s.lastCmd := rfl
@[simp] theorem ignoredWrite_code : (ignoredWrite s).code = s.code := rfl
@[simp] theorem ignoredWrite_held : (ignoredWrite s).held = s.held := rfl
@[simp] theorem ignoredWrite_ovr : (ignoredWrite s).ovr = true := rfl
@[simp] theorem ignoredWrite_tclo : (ignoredWrite s).tclo = s.tclo := rfl
@[simp] theorem ignoredWrite_tchi : (ignoredWrite s).tchi = s.tchi := rfl
@[simp] theorem ignoredWrite_hclo : (ignoredWrite s).hclo = s.hclo := rfl
@[simp] theorem ignoredWrite_hchi : (ignoredWrite s).hchi = s.hchi := rfl
@[simp] theorem ignoredWrite_cala : (ignoredWrite s).cala = s.cala := rfl
@[simp] theorem ignoredWrite_calb : (ignoredWrite s).calb = s.calb := rfl
@[simp] theorem ignoredWrite_tfv : (ignoredWrite s).tfv = s.tfv := rfl
@[simp] theorem ignoredWrite_rxlen : (ignoredWrite s).rxlen = s.rxlen := rfl
@[simp] theorem ignoredWrite_rxbuf : (ignoredWrite s).rxbuf = s.rxbuf := rfl
@[simp] theorem ignoredWrite_temp : (ignoredWrite s).temp = s.temp := rfl
@[simp] theorem ignoredWrite_tfine : (ignoredWrite s).tfine = s.tfine := rfl
@[simp] theorem ignoredWrite_hum : (ignoredWrite s).hum = s.hum := rfl
@[simp] theorem ignoredWrite_cal : (ignoredWrite s).cal = s.cal := rfl
@[simp] theorem ignoredWrite_phase : (ignoredWrite s).phase = s.phase := rfl
@[simp] theorem ignoredWrite_k : (ignoredWrite s).k = s.k := rfl
@[simp] theorem ignoredWrite_seq : (ignoredWrite s).seq = s.seq := rfl
@[simp] theorem ignoredWrite_cur : (ignoredWrite s).cur = s.cur := rfl
@[simp] theorem ignoredWrite_engPending : (ignoredWrite s).engPending = s.engPending := rfl
@[simp] theorem ignoredWrite_beAnswer : (ignoredWrite s).beAnswer = s.beAnswer := rfl
@[simp] theorem ignoredWrite_busLog : (ignoredWrite s).busLog = s.busLog := rfl
@[simp] theorem ignoredWrite_moves : (ignoredWrite s).moves = s.moves := rfl
@[simp] theorem ignoredWrite_host : (ignoredWrite s).host = s.host := rfl
@[simp] theorem ignoredWrite_resets : (ignoredWrite s).resets = s.resets := rfl

end ignoredWrite

section latchCommand

variable (op : Byte) (s : State)

@[simp] theorem latchCommand_dev : (latchCommand op s).dev = s.dev := rfl
@[simp] theorem latchCommand_regidx : (latchCommand op s).regidx = s.regidx := rfl
@[simp] theorem latchCommand_wdata : (latchCommand op s).wdata = s.wdata := rfl
@[simp] theorem latchCommand_count : (latchCommand op s).count = s.count := rfl
@[simp] theorem latchCommand_selhold : (latchCommand op s).selhold = s.selhold := rfl
@[simp] theorem latchCommand_rawt : (latchCommand op s).rawt = s.rawt := rfl
@[simp] theorem latchCommand_rawh : (latchCommand op s).rawh = s.rawh := rfl
@[simp] theorem latchCommand_lastCmd : (latchCommand op s).lastCmd = op := rfl
@[simp] theorem latchCommand_code : (latchCommand op s).code = s.code := rfl
@[simp] theorem latchCommand_held : (latchCommand op s).held = s.held := rfl
@[simp] theorem latchCommand_ovr : (latchCommand op s).ovr = false := rfl
@[simp] theorem latchCommand_tclo : (latchCommand op s).tclo = s.tclo := rfl
@[simp] theorem latchCommand_tchi : (latchCommand op s).tchi = s.tchi := rfl
@[simp] theorem latchCommand_hclo : (latchCommand op s).hclo = s.hclo := rfl
@[simp] theorem latchCommand_hchi : (latchCommand op s).hchi = s.hchi := rfl
@[simp] theorem latchCommand_cala : (latchCommand op s).cala = s.cala := rfl
@[simp] theorem latchCommand_calb : (latchCommand op s).calb = s.calb := rfl
@[simp] theorem latchCommand_tfv : (latchCommand op s).tfv = s.tfv := rfl
@[simp] theorem latchCommand_rxlen : (latchCommand op s).rxlen = s.rxlen := rfl
@[simp] theorem latchCommand_rxbuf : (latchCommand op s).rxbuf = s.rxbuf := rfl
@[simp] theorem latchCommand_temp : (latchCommand op s).temp = s.temp := rfl
@[simp] theorem latchCommand_tfine : (latchCommand op s).tfine = s.tfine := rfl
@[simp] theorem latchCommand_hum : (latchCommand op s).hum = s.hum := rfl
@[simp] theorem latchCommand_cal : (latchCommand op s).cal = s.cal := rfl
@[simp] theorem latchCommand_phase : (latchCommand op s).phase = s.phase := rfl
@[simp] theorem latchCommand_k : (latchCommand op s).k = s.k := rfl
@[simp] theorem latchCommand_seq : (latchCommand op s).seq = s.seq := rfl
@[simp] theorem latchCommand_cur : (latchCommand op s).cur = s.cur := rfl
@[simp] theorem latchCommand_engPending : (latchCommand op s).engPending = s.engPending := rfl
@[simp] theorem latchCommand_beAnswer : (latchCommand op s).beAnswer = s.beAnswer := rfl
@[simp] theorem latchCommand_busLog : (latchCommand op s).busLog = s.busLog := rfl
@[simp] theorem latchCommand_moves : (latchCommand op s).moves = s.moves := rfl
@[simp] theorem latchCommand_host : (latchCommand op s).host = s.host := rfl
@[simp] theorem latchCommand_resets : (latchCommand op s).resets = s.resets := rfl

end latchCommand

section startTransaction

variable (op : Byte) (l : List SeqStep) (s : State)

@[simp] theorem startTransaction_dev : (startTransaction op l s).dev = s.dev := rfl
@[simp] theorem startTransaction_regidx : (startTransaction op l s).regidx = s.regidx := rfl
@[simp] theorem startTransaction_wdata : (startTransaction op l s).wdata = s.wdata := rfl
@[simp] theorem startTransaction_count : (startTransaction op l s).count = s.count := rfl
@[simp] theorem startTransaction_selhold : (startTransaction op l s).selhold = s.selhold := rfl
@[simp] theorem startTransaction_rawt : (startTransaction op l s).rawt = s.rawt := rfl
@[simp] theorem startTransaction_rawh : (startTransaction op l s).rawh = s.rawh := rfl
@[simp] theorem startTransaction_lastCmd : (startTransaction op l s).lastCmd = op := rfl
@[simp] theorem startTransaction_code : (startTransaction op l s).code = s.code := rfl
@[simp] theorem startTransaction_held : (startTransaction op l s).held = s.held := rfl
@[simp] theorem startTransaction_ovr : (startTransaction op l s).ovr = false := rfl
@[simp] theorem startTransaction_tclo : (startTransaction op l s).tclo = s.tclo := rfl
@[simp] theorem startTransaction_tchi : (startTransaction op l s).tchi = s.tchi := rfl
@[simp] theorem startTransaction_hclo : (startTransaction op l s).hclo = s.hclo := rfl
@[simp] theorem startTransaction_hchi : (startTransaction op l s).hchi = s.hchi := rfl
@[simp] theorem startTransaction_cala : (startTransaction op l s).cala = s.cala := rfl
@[simp] theorem startTransaction_calb : (startTransaction op l s).calb = s.calb := rfl
@[simp] theorem startTransaction_tfv : (startTransaction op l s).tfv = s.tfv := rfl
@[simp] theorem startTransaction_rxlen : (startTransaction op l s).rxlen = s.rxlen := rfl
@[simp] theorem startTransaction_rxbuf : (startTransaction op l s).rxbuf = s.rxbuf := rfl
@[simp] theorem startTransaction_temp : (startTransaction op l s).temp = s.temp := rfl
@[simp] theorem startTransaction_tfine : (startTransaction op l s).tfine = s.tfine := rfl
@[simp] theorem startTransaction_hum : (startTransaction op l s).hum = s.hum := rfl
@[simp] theorem startTransaction_cal : (startTransaction op l s).cal = s.cal := rfl
@[simp] theorem startTransaction_phase : (startTransaction op l s).phase = .issue := rfl
@[simp] theorem startTransaction_k : (startTransaction op l s).k = 0 := rfl
@[simp] theorem startTransaction_seq : (startTransaction op l s).seq = l := rfl
@[simp] theorem startTransaction_cur : (startTransaction op l s).cur = op := rfl
@[simp] theorem startTransaction_engPending : (startTransaction op l s).engPending = s.engPending := rfl
@[simp] theorem startTransaction_beAnswer : (startTransaction op l s).beAnswer = s.beAnswer := rfl
@[simp] theorem startTransaction_busLog : (startTransaction op l s).busLog = s.busLog := rfl
@[simp] theorem startTransaction_moves : (startTransaction op l s).moves = s.moves := rfl
@[simp] theorem startTransaction_host : (startTransaction op l s).host = s.host := rfl
@[simp] theorem startTransaction_resets : (startTransaction op l s).resets = s.resets := rfl

end startTransaction

section finishAtAcceptance

variable (op : Byte) (c : StatusCode) (s : State)

@[simp] theorem finishAtAcceptance_dev : (finishAtAcceptance op c s).dev = s.dev := rfl
@[simp] theorem finishAtAcceptance_regidx : (finishAtAcceptance op c s).regidx = s.regidx := rfl
@[simp] theorem finishAtAcceptance_wdata : (finishAtAcceptance op c s).wdata = s.wdata := rfl
@[simp] theorem finishAtAcceptance_count : (finishAtAcceptance op c s).count = s.count := rfl
@[simp] theorem finishAtAcceptance_selhold : (finishAtAcceptance op c s).selhold = s.selhold := rfl
@[simp] theorem finishAtAcceptance_rawt : (finishAtAcceptance op c s).rawt = s.rawt := rfl
@[simp] theorem finishAtAcceptance_rawh : (finishAtAcceptance op c s).rawh = s.rawh := rfl
@[simp] theorem finishAtAcceptance_lastCmd : (finishAtAcceptance op c s).lastCmd = op := rfl
@[simp] theorem finishAtAcceptance_code : (finishAtAcceptance op c s).code = c := rfl
@[simp] theorem finishAtAcceptance_held : (finishAtAcceptance op c s).held = s.held := rfl
@[simp] theorem finishAtAcceptance_ovr : (finishAtAcceptance op c s).ovr = false := rfl
@[simp] theorem finishAtAcceptance_tclo : (finishAtAcceptance op c s).tclo = s.tclo := rfl
@[simp] theorem finishAtAcceptance_tchi : (finishAtAcceptance op c s).tchi = s.tchi := rfl
@[simp] theorem finishAtAcceptance_hclo : (finishAtAcceptance op c s).hclo = s.hclo := rfl
@[simp] theorem finishAtAcceptance_hchi : (finishAtAcceptance op c s).hchi = s.hchi := rfl
@[simp] theorem finishAtAcceptance_cala : (finishAtAcceptance op c s).cala = s.cala := rfl
@[simp] theorem finishAtAcceptance_calb : (finishAtAcceptance op c s).calb = s.calb := rfl
@[simp] theorem finishAtAcceptance_tfv : (finishAtAcceptance op c s).tfv = s.tfv := rfl
@[simp] theorem finishAtAcceptance_rxlen : (finishAtAcceptance op c s).rxlen = s.rxlen := rfl
@[simp] theorem finishAtAcceptance_rxbuf : (finishAtAcceptance op c s).rxbuf = s.rxbuf := rfl
@[simp] theorem finishAtAcceptance_temp : (finishAtAcceptance op c s).temp = s.temp := rfl
@[simp] theorem finishAtAcceptance_tfine : (finishAtAcceptance op c s).tfine = s.tfine := rfl
@[simp] theorem finishAtAcceptance_hum : (finishAtAcceptance op c s).hum = s.hum := rfl
@[simp] theorem finishAtAcceptance_cal : (finishAtAcceptance op c s).cal = s.cal := rfl
@[simp] theorem finishAtAcceptance_phase : (finishAtAcceptance op c s).phase = .idle := rfl
@[simp] theorem finishAtAcceptance_k : (finishAtAcceptance op c s).k = 0 := rfl
@[simp] theorem finishAtAcceptance_seq : (finishAtAcceptance op c s).seq = s.seq := rfl
@[simp] theorem finishAtAcceptance_cur : (finishAtAcceptance op c s).cur = op := rfl
@[simp] theorem finishAtAcceptance_engPending : (finishAtAcceptance op c s).engPending = s.engPending := rfl
@[simp] theorem finishAtAcceptance_beAnswer : (finishAtAcceptance op c s).beAnswer = s.beAnswer := rfl
@[simp] theorem finishAtAcceptance_busLog : (finishAtAcceptance op c s).busLog = s.busLog := rfl
@[simp] theorem finishAtAcceptance_moves : (finishAtAcceptance op c s).moves = s.moves := rfl
@[simp] theorem finishAtAcceptance_host : (finishAtAcceptance op c s).host = s.host := rfl
@[simp] theorem finishAtAcceptance_resets : (finishAtAcceptance op c s).resets = s.resets := rfl

end finishAtAcceptance

section acceptEng

variable (op : Byte) (s : State)

@[simp] theorem acceptEng_dev : (acceptEng op s).dev = s.dev := rfl
@[simp] theorem acceptEng_regidx : (acceptEng op s).regidx = s.regidx := rfl
@[simp] theorem acceptEng_wdata : (acceptEng op s).wdata = s.wdata := rfl
@[simp] theorem acceptEng_count : (acceptEng op s).count = s.count := rfl
@[simp] theorem acceptEng_selhold : (acceptEng op s).selhold = s.selhold := rfl
@[simp] theorem acceptEng_rawt : (acceptEng op s).rawt = s.rawt := rfl
@[simp] theorem acceptEng_rawh : (acceptEng op s).rawh = s.rawh := rfl
@[simp] theorem acceptEng_lastCmd : (acceptEng op s).lastCmd = op := rfl
@[simp] theorem acceptEng_code : (acceptEng op s).code = s.code := rfl
@[simp] theorem acceptEng_held : (acceptEng op s).held = s.held := rfl
@[simp] theorem acceptEng_ovr : (acceptEng op s).ovr = false := rfl
@[simp] theorem acceptEng_tclo : (acceptEng op s).tclo = s.tclo := rfl
@[simp] theorem acceptEng_tchi : (acceptEng op s).tchi = s.tchi := rfl
@[simp] theorem acceptEng_hclo : (acceptEng op s).hclo = s.hclo := rfl
@[simp] theorem acceptEng_hchi : (acceptEng op s).hchi = s.hchi := rfl
@[simp] theorem acceptEng_cala : (acceptEng op s).cala = s.cala := rfl
@[simp] theorem acceptEng_calb : (acceptEng op s).calb = s.calb := rfl
@[simp] theorem acceptEng_tfv : (acceptEng op s).tfv = s.tfv := rfl
@[simp] theorem acceptEng_rxlen : (acceptEng op s).rxlen = s.rxlen := rfl
@[simp] theorem acceptEng_rxbuf : (acceptEng op s).rxbuf = s.rxbuf := rfl
@[simp] theorem acceptEng_temp : (acceptEng op s).temp = s.temp := rfl
@[simp] theorem acceptEng_tfine : (acceptEng op s).tfine = s.tfine := rfl
@[simp] theorem acceptEng_hum : (acceptEng op s).hum = s.hum := rfl
@[simp] theorem acceptEng_cal : (acceptEng op s).cal = s.cal := rfl
@[simp] theorem acceptEng_phase : (acceptEng op s).phase = s.phase := rfl
@[simp] theorem acceptEng_k : (acceptEng op s).k = s.k := rfl
@[simp] theorem acceptEng_seq : (acceptEng op s).seq = s.seq := rfl
@[simp] theorem acceptEng_cur : (acceptEng op s).cur = s.cur := rfl
@[simp] theorem acceptEng_engPending : (acceptEng op s).engPending = true := rfl
@[simp] theorem acceptEng_beAnswer : (acceptEng op s).beAnswer = s.beAnswer := rfl
@[simp] theorem acceptEng_busLog : (acceptEng op s).busLog = s.busLog := rfl
@[simp] theorem acceptEng_moves : (acceptEng op s).moves = s.moves := rfl
@[simp] theorem acceptEng_host : (acceptEng op s).host = s.host := rfl
@[simp] theorem acceptEng_resets : (acceptEng op s).resets = s.resets := rfl

end acceptEng

section illegalOpcode

variable (op : Byte) (s : State)

@[simp] theorem illegalOpcode_dev : (illegalOpcode op s).dev = s.dev := rfl
@[simp] theorem illegalOpcode_regidx : (illegalOpcode op s).regidx = s.regidx := rfl
@[simp] theorem illegalOpcode_wdata : (illegalOpcode op s).wdata = s.wdata := rfl
@[simp] theorem illegalOpcode_count : (illegalOpcode op s).count = s.count := rfl
@[simp] theorem illegalOpcode_selhold : (illegalOpcode op s).selhold = s.selhold := rfl
@[simp] theorem illegalOpcode_rawt : (illegalOpcode op s).rawt = s.rawt := rfl
@[simp] theorem illegalOpcode_rawh : (illegalOpcode op s).rawh = s.rawh := rfl
@[simp] theorem illegalOpcode_lastCmd : (illegalOpcode op s).lastCmd = op := rfl
@[simp] theorem illegalOpcode_code : (illegalOpcode op s).code = .errIllegal := rfl
@[simp] theorem illegalOpcode_held : (illegalOpcode op s).held = s.held := rfl
@[simp] theorem illegalOpcode_ovr : (illegalOpcode op s).ovr = false := rfl
@[simp] theorem illegalOpcode_tclo : (illegalOpcode op s).tclo = s.tclo := rfl
@[simp] theorem illegalOpcode_tchi : (illegalOpcode op s).tchi = s.tchi := rfl
@[simp] theorem illegalOpcode_hclo : (illegalOpcode op s).hclo = s.hclo := rfl
@[simp] theorem illegalOpcode_hchi : (illegalOpcode op s).hchi = s.hchi := rfl
@[simp] theorem illegalOpcode_cala : (illegalOpcode op s).cala = s.cala := rfl
@[simp] theorem illegalOpcode_calb : (illegalOpcode op s).calb = s.calb := rfl
@[simp] theorem illegalOpcode_tfv : (illegalOpcode op s).tfv = s.tfv := rfl
@[simp] theorem illegalOpcode_rxlen : (illegalOpcode op s).rxlen = s.rxlen := rfl
@[simp] theorem illegalOpcode_rxbuf : (illegalOpcode op s).rxbuf = s.rxbuf := rfl
@[simp] theorem illegalOpcode_temp : (illegalOpcode op s).temp = s.temp := rfl
@[simp] theorem illegalOpcode_tfine : (illegalOpcode op s).tfine = s.tfine := rfl
@[simp] theorem illegalOpcode_hum : (illegalOpcode op s).hum = s.hum := rfl
@[simp] theorem illegalOpcode_cal : (illegalOpcode op s).cal = s.cal := rfl
@[simp] theorem illegalOpcode_phase : (illegalOpcode op s).phase = s.phase := rfl
@[simp] theorem illegalOpcode_k : (illegalOpcode op s).k = s.k := rfl
@[simp] theorem illegalOpcode_seq : (illegalOpcode op s).seq = s.seq := rfl
@[simp] theorem illegalOpcode_cur : (illegalOpcode op s).cur = s.cur := rfl
@[simp] theorem illegalOpcode_engPending : (illegalOpcode op s).engPending = s.engPending := rfl
@[simp] theorem illegalOpcode_beAnswer : (illegalOpcode op s).beAnswer = s.beAnswer := rfl
@[simp] theorem illegalOpcode_busLog : (illegalOpcode op s).busLog = s.busLog := rfl
@[simp] theorem illegalOpcode_moves : (illegalOpcode op s).moves = s.moves := rfl
@[simp] theorem illegalOpcode_host : (illegalOpcode op s).host = s.host := rfl
@[simp] theorem illegalOpcode_resets : (illegalOpcode op s).resets = s.resets := rfl

end illegalOpcode

section receiveResults

variable (s : State)

@[simp] theorem receiveResults_dev : (receiveResults s).dev = s.dev := rfl
@[simp] theorem receiveResults_regidx : (receiveResults s).regidx = s.regidx := rfl
@[simp] theorem receiveResults_wdata : (receiveResults s).wdata = s.wdata := rfl
@[simp] theorem receiveResults_count : (receiveResults s).count = s.count := rfl
@[simp] theorem receiveResults_selhold : (receiveResults s).selhold = s.selhold := rfl
@[simp] theorem receiveResults_rawt : (receiveResults s).rawt = s.rawt := rfl
@[simp] theorem receiveResults_rawh : (receiveResults s).rawh = s.rawh := rfl
@[simp] theorem receiveResults_lastCmd : (receiveResults s).lastCmd = s.lastCmd := rfl
@[simp] theorem receiveResults_code : (receiveResults s).code = s.code := rfl
@[simp] theorem receiveResults_held : (receiveResults s).held = s.held := rfl
@[simp] theorem receiveResults_ovr : (receiveResults s).ovr = s.ovr := rfl
@[simp] theorem receiveResults_tclo : (receiveResults s).tclo = s.tclo := rfl
@[simp] theorem receiveResults_tchi : (receiveResults s).tchi = s.tchi := rfl
@[simp] theorem receiveResults_hclo : (receiveResults s).hclo = s.hclo := rfl
@[simp] theorem receiveResults_hchi : (receiveResults s).hchi = s.hchi := rfl
@[simp] theorem receiveResults_cala : (receiveResults s).cala = s.cala := rfl
@[simp] theorem receiveResults_calb : (receiveResults s).calb = s.calb := rfl
@[simp] theorem receiveResults_tfv : (receiveResults s).tfv = s.tfv := rfl
@[simp] theorem receiveResults_rxlen : (receiveResults s).rxlen = BitVec.ofNat 8 (recvCount s.seq) := rfl
@[simp] theorem receiveResults_rxbuf : (receiveResults s).rxbuf = s.rxbuf := rfl
@[simp] theorem receiveResults_temp : (receiveResults s).temp = s.temp := rfl
@[simp] theorem receiveResults_tfine : (receiveResults s).tfine = s.tfine := rfl
@[simp] theorem receiveResults_hum : (receiveResults s).hum = s.hum := rfl
@[simp] theorem receiveResults_cal : (receiveResults s).cal = s.cal := rfl
@[simp] theorem receiveResults_phase : (receiveResults s).phase = s.phase := rfl
@[simp] theorem receiveResults_k : (receiveResults s).k = s.k := rfl
@[simp] theorem receiveResults_seq : (receiveResults s).seq = s.seq := rfl
@[simp] theorem receiveResults_cur : (receiveResults s).cur = s.cur := rfl
@[simp] theorem receiveResults_engPending : (receiveResults s).engPending = s.engPending := rfl
@[simp] theorem receiveResults_beAnswer : (receiveResults s).beAnswer = s.beAnswer := rfl
@[simp] theorem receiveResults_busLog : (receiveResults s).busLog = s.busLog := rfl
@[simp] theorem receiveResults_moves : (receiveResults s).moves = s.moves := rfl
@[simp] theorem receiveResults_host : (receiveResults s).host = s.host := rfl
@[simp] theorem receiveResults_resets : (receiveResults s).resets = s.resets := rfl

end receiveResults

section loadBlock1

variable (s : State)

@[simp] theorem loadBlock1_dev : (loadBlock1 s).dev = s.dev := rfl
@[simp] theorem loadBlock1_regidx : (loadBlock1 s).regidx = s.regidx := rfl
@[simp] theorem loadBlock1_wdata : (loadBlock1 s).wdata = s.wdata := rfl
@[simp] theorem loadBlock1_count : (loadBlock1 s).count = s.count := rfl
@[simp] theorem loadBlock1_selhold : (loadBlock1 s).selhold = s.selhold := rfl
@[simp] theorem loadBlock1_rawt : (loadBlock1 s).rawt = s.rawt := rfl
@[simp] theorem loadBlock1_rawh : (loadBlock1 s).rawh = s.rawh := rfl
@[simp] theorem loadBlock1_lastCmd : (loadBlock1 s).lastCmd = s.lastCmd := rfl
@[simp] theorem loadBlock1_code : (loadBlock1 s).code = .ok := rfl
@[simp] theorem loadBlock1_held : (loadBlock1 s).held = s.held := rfl
@[simp] theorem loadBlock1_ovr : (loadBlock1 s).ovr = s.ovr := rfl
@[simp] theorem loadBlock1_tclo : (loadBlock1 s).tclo = s.tclo := rfl
@[simp] theorem loadBlock1_tchi : (loadBlock1 s).tchi = s.tchi := rfl
@[simp] theorem loadBlock1_hclo : (loadBlock1 s).hclo = s.hclo := rfl
@[simp] theorem loadBlock1_hchi : (loadBlock1 s).hchi = s.hchi := rfl
@[simp] theorem loadBlock1_cala : (loadBlock1 s).cala = true := rfl
@[simp] theorem loadBlock1_calb : (loadBlock1 s).calb = false := rfl
@[simp] theorem loadBlock1_tfv : (loadBlock1 s).tfv = false := rfl
@[simp] theorem loadBlock1_rxlen : (loadBlock1 s).rxlen = s.rxlen := rfl
@[simp] theorem loadBlock1_rxbuf : (loadBlock1 s).rxbuf = s.rxbuf := rfl
@[simp] theorem loadBlock1_temp : (loadBlock1 s).temp = s.temp := rfl
@[simp] theorem loadBlock1_tfine : (loadBlock1 s).tfine = s.tfine := rfl
@[simp] theorem loadBlock1_hum : (loadBlock1 s).hum = s.hum := rfl
@[simp] theorem loadBlock1_cal : (loadBlock1 s).cal = decodeBlock1 s := rfl
@[simp] theorem loadBlock1_phase : (loadBlock1 s).phase = s.phase := rfl
@[simp] theorem loadBlock1_k : (loadBlock1 s).k = s.k := rfl
@[simp] theorem loadBlock1_seq : (loadBlock1 s).seq = s.seq := rfl
@[simp] theorem loadBlock1_cur : (loadBlock1 s).cur = s.cur := rfl
@[simp] theorem loadBlock1_engPending : (loadBlock1 s).engPending = false := rfl
@[simp] theorem loadBlock1_beAnswer : (loadBlock1 s).beAnswer = s.beAnswer := rfl
@[simp] theorem loadBlock1_busLog : (loadBlock1 s).busLog = s.busLog := rfl
@[simp] theorem loadBlock1_moves : (loadBlock1 s).moves = s.moves := rfl
@[simp] theorem loadBlock1_host : (loadBlock1 s).host = s.host := rfl
@[simp] theorem loadBlock1_resets : (loadBlock1 s).resets = s.resets := rfl

end loadBlock1

section loadBlock2

variable (s : State)

@[simp] theorem loadBlock2_dev : (loadBlock2 s).dev = s.dev := rfl
@[simp] theorem loadBlock2_regidx : (loadBlock2 s).regidx = s.regidx := rfl
@[simp] theorem loadBlock2_wdata : (loadBlock2 s).wdata = s.wdata := rfl
@[simp] theorem loadBlock2_count : (loadBlock2 s).count = s.count := rfl
@[simp] theorem loadBlock2_selhold : (loadBlock2 s).selhold = s.selhold := rfl
@[simp] theorem loadBlock2_rawt : (loadBlock2 s).rawt = s.rawt := rfl
@[simp] theorem loadBlock2_rawh : (loadBlock2 s).rawh = s.rawh := rfl
@[simp] theorem loadBlock2_lastCmd : (loadBlock2 s).lastCmd = s.lastCmd := rfl
@[simp] theorem loadBlock2_code : (loadBlock2 s).code = .ok := rfl
@[simp] theorem loadBlock2_held : (loadBlock2 s).held = s.held := rfl
@[simp] theorem loadBlock2_ovr : (loadBlock2 s).ovr = s.ovr := rfl
@[simp] theorem loadBlock2_tclo : (loadBlock2 s).tclo = s.tclo := rfl
@[simp] theorem loadBlock2_tchi : (loadBlock2 s).tchi = s.tchi := rfl
@[simp] theorem loadBlock2_hclo : (loadBlock2 s).hclo = s.hclo := rfl
@[simp] theorem loadBlock2_hchi : (loadBlock2 s).hchi = s.hchi := rfl
@[simp] theorem loadBlock2_cala : (loadBlock2 s).cala = s.cala := rfl
@[simp] theorem loadBlock2_calb : (loadBlock2 s).calb = true := rfl
@[simp] theorem loadBlock2_tfv : (loadBlock2 s).tfv = false := rfl
@[simp] theorem loadBlock2_rxlen : (loadBlock2 s).rxlen = s.rxlen := rfl
@[simp] theorem loadBlock2_rxbuf : (loadBlock2 s).rxbuf = s.rxbuf := rfl
@[simp] theorem loadBlock2_temp : (loadBlock2 s).temp = s.temp := rfl
@[simp] theorem loadBlock2_tfine : (loadBlock2 s).tfine = s.tfine := rfl
@[simp] theorem loadBlock2_hum : (loadBlock2 s).hum = s.hum := rfl
@[simp] theorem loadBlock2_cal : (loadBlock2 s).cal = decodeBlock2 s := rfl
@[simp] theorem loadBlock2_phase : (loadBlock2 s).phase = s.phase := rfl
@[simp] theorem loadBlock2_k : (loadBlock2 s).k = s.k := rfl
@[simp] theorem loadBlock2_seq : (loadBlock2 s).seq = s.seq := rfl
@[simp] theorem loadBlock2_cur : (loadBlock2 s).cur = s.cur := rfl
@[simp] theorem loadBlock2_engPending : (loadBlock2 s).engPending = false := rfl
@[simp] theorem loadBlock2_beAnswer : (loadBlock2 s).beAnswer = s.beAnswer := rfl
@[simp] theorem loadBlock2_busLog : (loadBlock2 s).busLog = s.busLog := rfl
@[simp] theorem loadBlock2_moves : (loadBlock2 s).moves = s.moves := rfl
@[simp] theorem loadBlock2_host : (loadBlock2 s).host = s.host := rfl
@[simp] theorem loadBlock2_resets : (loadBlock2 s).resets = s.resets := rfl

end loadBlock2

section loadRawt

variable (s : State)

@[simp] theorem loadRawt_dev : (loadRawt s).dev = s.dev := rfl
@[simp] theorem loadRawt_regidx : (loadRawt s).regidx = s.regidx := rfl
@[simp] theorem loadRawt_wdata : (loadRawt s).wdata = s.wdata := rfl
@[simp] theorem loadRawt_count : (loadRawt s).count = s.count := rfl
@[simp] theorem loadRawt_selhold : (loadRawt s).selhold = s.selhold := rfl
@[simp] theorem loadRawt_rawt : (loadRawt s).rawt = rawTemperature s := rfl
@[simp] theorem loadRawt_rawh : (loadRawt s).rawh = s.rawh := rfl
@[simp] theorem loadRawt_lastCmd : (loadRawt s).lastCmd = s.lastCmd := rfl
@[simp] theorem loadRawt_code : (loadRawt s).code = .ok := rfl
@[simp] theorem loadRawt_held : (loadRawt s).held = s.held := rfl
@[simp] theorem loadRawt_ovr : (loadRawt s).ovr = s.ovr := rfl
@[simp] theorem loadRawt_tclo : (loadRawt s).tclo = s.tclo := rfl
@[simp] theorem loadRawt_tchi : (loadRawt s).tchi = s.tchi := rfl
@[simp] theorem loadRawt_hclo : (loadRawt s).hclo = s.hclo := rfl
@[simp] theorem loadRawt_hchi : (loadRawt s).hchi = s.hchi := rfl
@[simp] theorem loadRawt_cala : (loadRawt s).cala = s.cala := rfl
@[simp] theorem loadRawt_calb : (loadRawt s).calb = s.calb := rfl
@[simp] theorem loadRawt_tfv : (loadRawt s).tfv = false := rfl
@[simp] theorem loadRawt_rxlen : (loadRawt s).rxlen = s.rxlen := rfl
@[simp] theorem loadRawt_rxbuf : (loadRawt s).rxbuf = s.rxbuf := rfl
@[simp] theorem loadRawt_temp : (loadRawt s).temp = s.temp := rfl
@[simp] theorem loadRawt_tfine : (loadRawt s).tfine = s.tfine := rfl
@[simp] theorem loadRawt_hum : (loadRawt s).hum = s.hum := rfl
@[simp] theorem loadRawt_cal : (loadRawt s).cal = s.cal := rfl
@[simp] theorem loadRawt_phase : (loadRawt s).phase = s.phase := rfl
@[simp] theorem loadRawt_k : (loadRawt s).k = s.k := rfl
@[simp] theorem loadRawt_seq : (loadRawt s).seq = s.seq := rfl
@[simp] theorem loadRawt_cur : (loadRawt s).cur = s.cur := rfl
@[simp] theorem loadRawt_engPending : (loadRawt s).engPending = false := rfl
@[simp] theorem loadRawt_beAnswer : (loadRawt s).beAnswer = s.beAnswer := rfl
@[simp] theorem loadRawt_busLog : (loadRawt s).busLog = s.busLog := rfl
@[simp] theorem loadRawt_moves : (loadRawt s).moves = s.moves := rfl
@[simp] theorem loadRawt_host : (loadRawt s).host = s.host := rfl
@[simp] theorem loadRawt_resets : (loadRawt s).resets = s.resets := rfl

end loadRawt

section loadRawh

variable (s : State)

@[simp] theorem loadRawh_dev : (loadRawh s).dev = s.dev := rfl
@[simp] theorem loadRawh_regidx : (loadRawh s).regidx = s.regidx := rfl
@[simp] theorem loadRawh_wdata : (loadRawh s).wdata = s.wdata := rfl
@[simp] theorem loadRawh_count : (loadRawh s).count = s.count := rfl
@[simp] theorem loadRawh_selhold : (loadRawh s).selhold = s.selhold := rfl
@[simp] theorem loadRawh_rawt : (loadRawh s).rawt = s.rawt := rfl
@[simp] theorem loadRawh_rawh : (loadRawh s).rawh = rawHumidity s := rfl
@[simp] theorem loadRawh_lastCmd : (loadRawh s).lastCmd = s.lastCmd := rfl
@[simp] theorem loadRawh_code : (loadRawh s).code = .ok := rfl
@[simp] theorem loadRawh_held : (loadRawh s).held = s.held := rfl
@[simp] theorem loadRawh_ovr : (loadRawh s).ovr = s.ovr := rfl
@[simp] theorem loadRawh_tclo : (loadRawh s).tclo = s.tclo := rfl
@[simp] theorem loadRawh_tchi : (loadRawh s).tchi = s.tchi := rfl
@[simp] theorem loadRawh_hclo : (loadRawh s).hclo = s.hclo := rfl
@[simp] theorem loadRawh_hchi : (loadRawh s).hchi = s.hchi := rfl
@[simp] theorem loadRawh_cala : (loadRawh s).cala = s.cala := rfl
@[simp] theorem loadRawh_calb : (loadRawh s).calb = s.calb := rfl
@[simp] theorem loadRawh_tfv : (loadRawh s).tfv = s.tfv := rfl
@[simp] theorem loadRawh_rxlen : (loadRawh s).rxlen = s.rxlen := rfl
@[simp] theorem loadRawh_rxbuf : (loadRawh s).rxbuf = s.rxbuf := rfl
@[simp] theorem loadRawh_temp : (loadRawh s).temp = s.temp := rfl
@[simp] theorem loadRawh_tfine : (loadRawh s).tfine = s.tfine := rfl
@[simp] theorem loadRawh_hum : (loadRawh s).hum = s.hum := rfl
@[simp] theorem loadRawh_cal : (loadRawh s).cal = s.cal := rfl
@[simp] theorem loadRawh_phase : (loadRawh s).phase = s.phase := rfl
@[simp] theorem loadRawh_k : (loadRawh s).k = s.k := rfl
@[simp] theorem loadRawh_seq : (loadRawh s).seq = s.seq := rfl
@[simp] theorem loadRawh_cur : (loadRawh s).cur = s.cur := rfl
@[simp] theorem loadRawh_engPending : (loadRawh s).engPending = false := rfl
@[simp] theorem loadRawh_beAnswer : (loadRawh s).beAnswer = s.beAnswer := rfl
@[simp] theorem loadRawh_busLog : (loadRawh s).busLog = s.busLog := rfl
@[simp] theorem loadRawh_moves : (loadRawh s).moves = s.moves := rfl
@[simp] theorem loadRawh_host : (loadRawh s).host = s.host := rfl
@[simp] theorem loadRawh_resets : (loadRawh s).resets = s.resets := rfl

end loadRawh

section compensateTemperature

variable (s : State)

@[simp] theorem compensateTemperature_dev : (compensateTemperature s).dev = s.dev := rfl
@[simp] theorem compensateTemperature_regidx : (compensateTemperature s).regidx = s.regidx := rfl
@[simp] theorem compensateTemperature_wdata : (compensateTemperature s).wdata = s.wdata := rfl
@[simp] theorem compensateTemperature_count : (compensateTemperature s).count = s.count := rfl
@[simp] theorem compensateTemperature_selhold : (compensateTemperature s).selhold = s.selhold := rfl
@[simp] theorem compensateTemperature_rawt : (compensateTemperature s).rawt = s.rawt := rfl
@[simp] theorem compensateTemperature_rawh : (compensateTemperature s).rawh = s.rawh := rfl
@[simp] theorem compensateTemperature_lastCmd : (compensateTemperature s).lastCmd = s.lastCmd := rfl
@[simp] theorem compensateTemperature_code : (compensateTemperature s).code = .ok := rfl
@[simp] theorem compensateTemperature_held : (compensateTemperature s).held = s.held := rfl
@[simp] theorem compensateTemperature_ovr : (compensateTemperature s).ovr = s.ovr := rfl
@[simp] theorem compensateTemperature_tclo : (compensateTemperature s).tclo = clampedLow tempLo (centiDegrees (thermalFine s.rawt s.cal)) := rfl
@[simp] theorem compensateTemperature_tchi : (compensateTemperature s).tchi = clampedHigh tempHi (centiDegrees (thermalFine s.rawt s.cal)) := rfl
@[simp] theorem compensateTemperature_hclo : (compensateTemperature s).hclo = s.hclo := rfl
@[simp] theorem compensateTemperature_hchi : (compensateTemperature s).hchi = s.hchi := rfl
@[simp] theorem compensateTemperature_cala : (compensateTemperature s).cala = s.cala := rfl
@[simp] theorem compensateTemperature_calb : (compensateTemperature s).calb = s.calb := rfl
@[simp] theorem compensateTemperature_tfv : (compensateTemperature s).tfv = true := rfl
@[simp] theorem compensateTemperature_rxlen : (compensateTemperature s).rxlen = s.rxlen := rfl
@[simp] theorem compensateTemperature_rxbuf : (compensateTemperature s).rxbuf = s.rxbuf := rfl
@[simp] theorem compensateTemperature_temp : (compensateTemperature s).temp = compensatedTemp (thermalFine s.rawt s.cal) := rfl
@[simp] theorem compensateTemperature_tfine : (compensateTemperature s).tfine = thermalFine s.rawt s.cal := rfl
@[simp] theorem compensateTemperature_hum : (compensateTemperature s).hum = s.hum := rfl
@[simp] theorem compensateTemperature_cal : (compensateTemperature s).cal = s.cal := rfl
@[simp] theorem compensateTemperature_phase : (compensateTemperature s).phase = s.phase := rfl
@[simp] theorem compensateTemperature_k : (compensateTemperature s).k = s.k := rfl
@[simp] theorem compensateTemperature_seq : (compensateTemperature s).seq = s.seq := rfl
@[simp] theorem compensateTemperature_cur : (compensateTemperature s).cur = s.cur := rfl
@[simp] theorem compensateTemperature_engPending : (compensateTemperature s).engPending = false := rfl
@[simp] theorem compensateTemperature_beAnswer : (compensateTemperature s).beAnswer = s.beAnswer := rfl
@[simp] theorem compensateTemperature_busLog : (compensateTemperature s).busLog = s.busLog := rfl
@[simp] theorem compensateTemperature_moves : (compensateTemperature s).moves = s.moves := rfl
@[simp] theorem compensateTemperature_host : (compensateTemperature s).host = s.host := rfl
@[simp] theorem compensateTemperature_resets : (compensateTemperature s).resets = s.resets := rfl

end compensateTemperature

section compensateHumidity

variable (s : State)

@[simp] theorem compensateHumidity_dev : (compensateHumidity s).dev = s.dev := rfl
@[simp] theorem compensateHumidity_regidx : (compensateHumidity s).regidx = s.regidx := rfl
@[simp] theorem compensateHumidity_wdata : (compensateHumidity s).wdata = s.wdata := rfl
@[simp] theorem compensateHumidity_count : (compensateHumidity s).count = s.count := rfl
@[simp] theorem compensateHumidity_selhold : (compensateHumidity s).selhold = s.selhold := rfl
@[simp] theorem compensateHumidity_rawt : (compensateHumidity s).rawt = s.rawt := rfl
@[simp] theorem compensateHumidity_rawh : (compensateHumidity s).rawh = s.rawh := rfl
@[simp] theorem compensateHumidity_lastCmd : (compensateHumidity s).lastCmd = s.lastCmd := rfl
@[simp] theorem compensateHumidity_code : (compensateHumidity s).code = .ok := rfl
@[simp] theorem compensateHumidity_held : (compensateHumidity s).held = s.held := rfl
@[simp] theorem compensateHumidity_ovr : (compensateHumidity s).ovr = s.ovr := rfl
@[simp] theorem compensateHumidity_tclo : (compensateHumidity s).tclo = s.tclo := rfl
@[simp] theorem compensateHumidity_tchi : (compensateHumidity s).tchi = s.tchi := rfl
@[simp] theorem compensateHumidity_hclo : (compensateHumidity s).hclo = clampedLow humLo (humPreClamp s.rawh s.tfine s.cal) := rfl
@[simp] theorem compensateHumidity_hchi : (compensateHumidity s).hchi = clampedHigh humHi (humPreClamp s.rawh s.tfine s.cal) := rfl
@[simp] theorem compensateHumidity_cala : (compensateHumidity s).cala = s.cala := rfl
@[simp] theorem compensateHumidity_calb : (compensateHumidity s).calb = s.calb := rfl
@[simp] theorem compensateHumidity_tfv : (compensateHumidity s).tfv = s.tfv := rfl
@[simp] theorem compensateHumidity_rxlen : (compensateHumidity s).rxlen = s.rxlen := rfl
@[simp] theorem compensateHumidity_rxbuf : (compensateHumidity s).rxbuf = s.rxbuf := rfl
@[simp] theorem compensateHumidity_temp : (compensateHumidity s).temp = s.temp := rfl
@[simp] theorem compensateHumidity_tfine : (compensateHumidity s).tfine = s.tfine := rfl
@[simp] theorem compensateHumidity_hum : (compensateHumidity s).hum = compensatedHum (humPreClamp s.rawh s.tfine s.cal) := rfl
@[simp] theorem compensateHumidity_cal : (compensateHumidity s).cal = s.cal := rfl
@[simp] theorem compensateHumidity_phase : (compensateHumidity s).phase = s.phase := rfl
@[simp] theorem compensateHumidity_k : (compensateHumidity s).k = s.k := rfl
@[simp] theorem compensateHumidity_seq : (compensateHumidity s).seq = s.seq := rfl
@[simp] theorem compensateHumidity_cur : (compensateHumidity s).cur = s.cur := rfl
@[simp] theorem compensateHumidity_engPending : (compensateHumidity s).engPending = false := rfl
@[simp] theorem compensateHumidity_beAnswer : (compensateHumidity s).beAnswer = s.beAnswer := rfl
@[simp] theorem compensateHumidity_busLog : (compensateHumidity s).busLog = s.busLog := rfl
@[simp] theorem compensateHumidity_moves : (compensateHumidity s).moves = s.moves := rfl
@[simp] theorem compensateHumidity_host : (compensateHumidity s).host = s.host := rfl
@[simp] theorem compensateHumidity_resets : (compensateHumidity s).resets = s.resets := rfl

end compensateHumidity

section hostNext

variable (s : State)

@[simp] theorem hostNext_dev : (hostNext s).dev = s.dev := rfl
@[simp] theorem hostNext_regidx : (hostNext s).regidx = s.regidx := rfl
@[simp] theorem hostNext_wdata : (hostNext s).wdata = s.wdata := rfl
@[simp] theorem hostNext_count : (hostNext s).count = s.count := rfl
@[simp] theorem hostNext_selhold : (hostNext s).selhold = s.selhold := rfl
@[simp] theorem hostNext_rawt : (hostNext s).rawt = s.rawt := rfl
@[simp] theorem hostNext_rawh : (hostNext s).rawh = s.rawh := rfl
@[simp] theorem hostNext_lastCmd : (hostNext s).lastCmd = s.lastCmd := rfl
@[simp] theorem hostNext_code : (hostNext s).code = s.code := rfl
@[simp] theorem hostNext_held : (hostNext s).held = s.held := rfl
@[simp] theorem hostNext_ovr : (hostNext s).ovr = s.ovr := rfl
@[simp] theorem hostNext_tclo : (hostNext s).tclo = s.tclo := rfl
@[simp] theorem hostNext_tchi : (hostNext s).tchi = s.tchi := rfl
@[simp] theorem hostNext_hclo : (hostNext s).hclo = s.hclo := rfl
@[simp] theorem hostNext_hchi : (hostNext s).hchi = s.hchi := rfl
@[simp] theorem hostNext_cala : (hostNext s).cala = s.cala := rfl
@[simp] theorem hostNext_calb : (hostNext s).calb = s.calb := rfl
@[simp] theorem hostNext_tfv : (hostNext s).tfv = s.tfv := rfl
@[simp] theorem hostNext_rxlen : (hostNext s).rxlen = s.rxlen := rfl
@[simp] theorem hostNext_rxbuf : (hostNext s).rxbuf = s.rxbuf := rfl
@[simp] theorem hostNext_temp : (hostNext s).temp = s.temp := rfl
@[simp] theorem hostNext_tfine : (hostNext s).tfine = s.tfine := rfl
@[simp] theorem hostNext_hum : (hostNext s).hum = s.hum := rfl
@[simp] theorem hostNext_cal : (hostNext s).cal = s.cal := rfl
@[simp] theorem hostNext_phase : (hostNext s).phase = s.phase := rfl
@[simp] theorem hostNext_k : (hostNext s).k = s.k := rfl
@[simp] theorem hostNext_seq : (hostNext s).seq = s.seq := rfl
@[simp] theorem hostNext_cur : (hostNext s).cur = s.cur := rfl
@[simp] theorem hostNext_engPending : (hostNext s).engPending = s.engPending := rfl
@[simp] theorem hostNext_beAnswer : (hostNext s).beAnswer = s.beAnswer := rfl
@[simp] theorem hostNext_busLog : (hostNext s).busLog = s.busLog := rfl
@[simp] theorem hostNext_moves : (hostNext s).moves = s.moves := rfl
@[simp] theorem hostNext_host : (hostNext s).host = { s.host with pc := s.host.pc + 1 } := rfl
@[simp] theorem hostNext_resets : (hostNext s).resets = s.resets := rfl

@[simp] theorem hostReturn_of_caller (s : State) (place : Nat) (rest : List Nat) (h : s.host.returns = place :: rest) :
    hostReturn s = { s with host := { s.host with pc := place, returns := rest } } := by
  simp [hostReturn, h]

@[simp] theorem hostReturn_of_no_caller (s : State) (h : s.host.returns = []) : hostReturn s = s := by
  simp [hostReturn, h]

/-- A return moves the HOST and nothing else. -/
theorem hostReturn_frame (s : State) : ∃ h, hostReturn s = { s with host := h } := by
  cases h : s.host.returns with
  | nil => exact ⟨s.host, hostReturn_of_no_caller s h⟩
  | cons place rest => exact ⟨_, hostReturn_of_caller s place rest h⟩

end hostNext

section resetBlock

variable (s : State)

@[simp] theorem resetBlock_dev : (resetBlock s).dev = 0 := rfl
@[simp] theorem resetBlock_regidx : (resetBlock s).regidx = 0 := rfl
@[simp] theorem resetBlock_wdata : (resetBlock s).wdata = 0 := rfl
@[simp] theorem resetBlock_count : (resetBlock s).count = 0 := rfl
@[simp] theorem resetBlock_selhold : (resetBlock s).selhold = false := rfl
@[simp] theorem resetBlock_rawt : (resetBlock s).rawt = 0 := rfl
@[simp] theorem resetBlock_rawh : (resetBlock s).rawh = 0 := rfl
@[simp] theorem resetBlock_lastCmd : (resetBlock s).lastCmd = 0x00 := rfl
@[simp] theorem resetBlock_code : (resetBlock s).code = .ok := rfl
@[simp] theorem resetBlock_held : (resetBlock s).held = false := rfl
@[simp] theorem resetBlock_ovr : (resetBlock s).ovr = false := rfl
@[simp] theorem resetBlock_tclo : (resetBlock s).tclo = false := rfl
@[simp] theorem resetBlock_tchi : (resetBlock s).tchi = false := rfl
@[simp] theorem resetBlock_hclo : (resetBlock s).hclo = false := rfl
@[simp] theorem resetBlock_hchi : (resetBlock s).hchi = false := rfl
@[simp] theorem resetBlock_cala : (resetBlock s).cala = false := rfl
@[simp] theorem resetBlock_calb : (resetBlock s).calb = false := rfl
@[simp] theorem resetBlock_tfv : (resetBlock s).tfv = false := rfl
@[simp] theorem resetBlock_rxlen : (resetBlock s).rxlen = 0 := rfl
@[simp] theorem resetBlock_rxbuf : (resetBlock s).rxbuf = drawRxbuf (s.resets + 1) := rfl
@[simp] theorem resetBlock_temp : (resetBlock s).temp = 0 := rfl
@[simp] theorem resetBlock_tfine : (resetBlock s).tfine = 0 := rfl
@[simp] theorem resetBlock_hum : (resetBlock s).hum = 0 := rfl
@[simp] theorem resetBlock_cal : (resetBlock s).cal = Calibration.zero := rfl
@[simp] theorem resetBlock_phase : (resetBlock s).phase = .idle := rfl
@[simp] theorem resetBlock_k : (resetBlock s).k = 0 := rfl
@[simp] theorem resetBlock_seq : (resetBlock s).seq = [] := rfl
@[simp] theorem resetBlock_cur : (resetBlock s).cur = 0x00 := rfl
@[simp] theorem resetBlock_engPending : (resetBlock s).engPending = false := rfl
@[simp] theorem resetBlock_beAnswer : (resetBlock s).beAnswer = none := rfl
@[simp] theorem resetBlock_busLog : (resetBlock s).busLog = s.busLog := rfl
@[simp] theorem resetBlock_moves : (resetBlock s).moves = s.moves := rfl
@[simp] theorem resetBlock_host : (resetBlock s).host = s.host := rfl
@[simp] theorem resetBlock_resets : (resetBlock s).resets = s.resets + 1 := rfl

end resetBlock

end Sys2Proof.Machine
end

