-- ==== Sys2Proof/Laws/Ops.lean ====
section
/-! SUPPORT. What each shared operation can do, said once: BUSY, a command's step, the bus steps, the engine's completion, and the
registers at the host port. -/

namespace Sys2Proof.Machine

/-- BUSY is 1 exactly when PHASE ≠ IDLE or ENG_PENDING = 1 (R33). -/
theorem busy_eq_true {s : State} : s.busy = true ↔ s.phase ≠ .idle ∨ s.engPending = true := by
  simp [State.busy]

theorem busy_eq_false {s : State} : s.busy = false ↔ s.phase = .idle ∧ s.engPending = false := by
  simp [State.busy]

/-- With the block idle, a command's step is its acceptance (R92). -/
theorem commandStep_idle {s : State} (h : s.busy = false) (running : Bool) (accept : State → State)
    (advance : State → Result) : commandStep running accept advance s = .next (accept s) := by
  simp [commandStep, h]

/-- With the command in progress, its step is its unit's next step. -/
theorem commandStep_running {s : State} (h : s.busy = true) (accept : State → State) (advance : State → Result) :
    commandStep true accept advance s = advance s := by
  simp [commandStep, h]

/-- With another command in progress, the command is turned away with OVR (R67). -/
theorem commandStep_other {s : State} (h : s.busy = true) (accept : State → State) (advance : State → Result) :
    commandStep false accept advance s = .next (ignoredWrite s) := by
  simp [commandStep, h]

/-- Everything a command's step can be. -/
theorem commandStep_cases (running : Bool) (accept : State → State) (advance : State → Result) (s : State) :
    (s.busy = false ∧ commandStep running accept advance s = .next (accept s)) ∨
    (s.busy = true ∧ running = true ∧ commandStep running accept advance s = advance s) ∨
    (s.busy = true ∧ running = false ∧ commandStep running accept advance s = .next (ignoredWrite s)) := by
  cases hb : s.busy <;> cases running <;> simp [commandStep, hb]

/-- Everything the FSM's issue step can do (R111): it presents SEQ[K] and goes to WAIT. -/
theorem fsmIssue_next {s t : State} (h : fsmIssue s = .next t) :
    ∃ st, s.seq[s.k]? = some st ∧ t = { s with busLog := st.action :: s.busLog, phase := .wait } := by
  unfold fsmIssue at h
  split at h
  · cases h
  · next st hst => exact ⟨st, hst, by cases h; rfl⟩

/-- Everything the BE answer step can do (R112): nothing without an answer; with one, the failure of SEQ[K] with its code, or its
success effect and the advance. -/
theorem fsmAnswer_next {results : State → State} {s t : State} (h : fsmAnswer results s = .next t) :
    (s.beAnswer = none ∧ t = s) ∨
    ∃ a st, s.beAnswer = some a ∧ s.seq[s.k]? = some st ∧
      ((∃ f, st.check.failure a.cond = some f ∧ t = finishFsm f { s with beAnswer := none }) ∨
       (st.check.failure a.cond = none ∧
        t = advanceOrComplete results (stepEffect st a.rxb { s with beAnswer := none }))) := by
  unfold fsmAnswer at h
  split at h
  · next hn => cases h; exact .inl ⟨hn, rfl⟩
  · next a ha =>
    split at h
    · cases h
    · next st hst =>
      refine .inr ⟨a, st, ha, hst, ?_⟩
      split at h
      · next f hf => cases h; exact .inl ⟨f, hf, rfl⟩
      · next hf => cases h; exact .inr ⟨hf, rfl⟩

/-- Everything the FSM's next step can do. -/
theorem fsmStep_next {results : State → State} {s t : State} (h : fsmStep results s = .next t) :
    (s.phase = .idle ∧ t = s) ∨ (s.phase = .issue ∧ fsmIssue s = .next t) ∨
    (s.phase = .wait ∧ fsmAnswer results s = .next t) := by
  unfold fsmStep at h
  split at h
  · next hp => cases h; exact .inl ⟨hp, rfl⟩
  · next hp => exact .inr (.inl ⟨hp, h⟩)
  · next hp => exact .inr (.inr ⟨hp, h⟩)

/-- The FSM stops only where SEQ has no step K. -/
theorem fsmStep_of_step {results : State → State} {s : State} {st : SeqStep} (h : s.seq[s.k]? = some st) :
    ∃ t, fsmStep results s = .next t := by
  unfold fsmStep
  split
  · exact ⟨s, rfl⟩
  · exact ⟨_, by simp only [fsmIssue, h]; rfl⟩
  · unfold fsmAnswer
    split
    · exact ⟨s, rfl⟩
    · simp only [h]
      split <;> exact ⟨_, rfl⟩

/-- The two ends of a step whose condition is met: the next step, or the completion (R118). -/
theorem advanceOrComplete_cases (results : State → State) (s : State) :
    (s.k + 1 = s.seq.length ∧ advanceOrComplete results s = finishFsm .ok (results s)) ∨
    (s.k + 1 ≠ s.seq.length ∧ advanceOrComplete results s = { s with phase := .issue, k := s.k + 1 }) := by
  unfold advanceOrComplete
  split <;> simp_all

/-- Everything a step's success effect can change: HELD, and one byte of RXBUF (R114 to R117). -/
theorem stepEffect_eq (st : SeqStep) (rxb : Byte) (s : State) :
    ∃ hd rb, stepEffect st rxb s = { s with held := hd, rxbuf := rb } := by
  unfold stepEffect
  split <;> exact ⟨_, _, rfl⟩

/-- Everything an engine command's step can be: turned away, accepted, or completed, and always a next state (R170). -/
theorem engCommand_cases (op : Byte) (complete : State → State) (s : State) :
    (s.busy = false ∧ engCommand op complete s = .next (acceptEng op s)) ∨
    (s.engPending = true ∧ s.lastCmd = op ∧ engCommand op complete s = .next (complete s)) ∨
    (s.busy = true ∧ engRuns op s = false ∧ engCommand op complete s = .next (ignoredWrite s)) := by
  rcases commandStep_cases (engRuns op s) (acceptEng op) (fun s => .next (complete s)) s with h | h | h
  · exact .inl h
  · refine .inr (.inl ⟨?_, ?_, h.2.2⟩) <;> have := h.2.1 <;> simp_all [engRuns]
  · exact .inr (.inr h)

/-- A check of R171: past it, or its code and nothing else. -/
theorem engCheck_true {b : Bool} (h : b = true) (c : StatusCode) (rest : State → State) (s : State) :
    engCheck b c rest s = rest s := by simp [engCheck, h]

theorem engCheck_false {b : Bool} (h : b = false) (c : StatusCode) (rest : State → State) (s : State) :
    engCheck b c rest s = finishEng c s := by simp [engCheck, h]

/-- TEMP's range, for every thermal fine value (R200). -/
theorem compensatedTemp_range (fine : Word) :
    -4000 ≤ (compensatedTemp fine).toInt ∧ (compensatedTemp fine).toInt ≤ 8500 := by
  unfold compensatedTemp
  exact clamp32_range (lo := tempLo) (hi := tempHi) _ (by decide) (by decide) (by decide)

/-- HUM's range, for every value before the clamp (R200). -/
theorem compensatedHum_range (v : Word) : (compensatedHum v).toNat ≤ 102400 := by
  have h := clamp32_range (lo := humLo) (hi := humHi) v (by decide) (by decide) (by decide)
  have h2 : (compensatedHum v).toInt = (clamp32 humLo humHi v).toInt / 2 ^ 12 := by
    unfold compensatedHum; exact toInt_asr32 _ 12
  simp only [humLo, humHi] at h h2
  have h3 := BitVec.toInt_eq_toNat_cond (compensatedHum v)
  have h4 := (compensatedHum v).isLt
  split at h3 <;> omega

/-- A read changes nothing, so reading is a function of the register and the state alone; a write to a register that is not writable
is ignored (R63, R66, R68). -/
theorem storeReg_readOnly {r : HostReg} (h : r.writable = false) (v : Word) (s : State) : storeReg r v s = s := by
  cases r <;> first | rfl | cases h

/-- A write while BUSY = 1 changes at most OVR (R67). -/
theorem writeReg_busy {s : State} (h : s.busy = true) (r : HostReg) (v : Word) :
    writeReg r v s = .next (if r.writable then ignoredWrite s else s) := by
  simp [writeReg, h, writeWhileBusy]

/-- An accepted command word is executed (R92). -/
theorem acceptWord_ok {v : Word} {i : Instr} (h : decode v = .ok i) (s : State) : acceptWord v s = exec i s := by
  simp [acceptWord, h]

/-- An illegal word takes the illegal-opcode path (R94). -/
theorem acceptWord_error {v : Word} {e : DecodeError} (h : decode v = .error e) (s : State) :
    acceptWord v s = .next (illegalOpcode (opcodeField v) s) := by
  obtain rfl := decode_error h
  simp [acceptWord, h]

/-- The accesses the port takes are R64's. -/
theorem accessRefusal_eq_none {off : Int} {bytes : Nat} :
    accessRefusal off bytes = none ↔ wellFormedAccess off bytes = true := by
  unfold accessRefusal wellFormedAccess
  cases accessSizeOk bytes <;> cases accessAlignedOk off <;> cases accessInWindow off <;> simp

theorem getLsbD_bit1 (b : Bool) (i : Nat) : (bit1 b).getLsbD i = (b && decide (i = 0)) := by
  cases b <;> simp [bit1]

/-- The STATUS word, bit by bit (R31). -/
theorem getLsbD_statusWord (s : State) (n : Nat) :
    (statusWord s).getLsbD n =
      if n < 4 then s.code.bits.getLsbD n else if n < 8 then false
      else if n = 8 then s.busy else if n = 9 then s.held else if n = 10 then s.ovr else if n = 11 then false
      else if n = 12 then s.tclo else if n = 13 then s.tchi else if n = 14 then s.hclo else if n = 15 then s.hchi
      else if n = 16 then s.cala else if n = 17 then s.calb else if n = 18 then s.tfv else false := by
  by_cases h : n < 32
  · unfold statusWord
    repeat rw [BitVec.getLsbD_append]
    simp only [getLsbD_bit1]
    interval_cases n <;> simp
  · rw [BitVec.getLsbD_of_ge _ _ (by omega : 32 ≤ n)]
    repeat rw [if_neg (by omega)]

/-- A read at an offset the port takes is the register there, and a write is a write to it (R62, R64). -/
theorem accessRefusal_ofNat {off : Nat} (h4 : off % 4 = 0) (hl : off < 0x200) : accessRefusal (off : Int) 4 = none := by
  have : (off : Int) % 4 = 0 := by omega
  simp [accessRefusal, accessSizeOk, accessAlignedOk, accessInWindow, Config.windowBytes, this, hl]

theorem memRead_ofNat {off : Nat} (h4 : off % 4 = 0) (hl : off < 0x200) (s : State) :
    memRead (off : Int) 4 s = .ok (readReg (regAt off) s) := by
  simp [memRead, accessRefusal_ofNat h4 hl]

theorem memWrite_ofNat {off : Nat} (h4 : off % 4 = 0) (hl : off < 0x200) (v : Word) (s : State) :
    memWrite (off : Int) 4 v s = writeReg (regAt off) v s := by
  simp [memWrite, accessRefusal_ofNat h4 hl]

end Sys2Proof.Machine
end

