-- ==== Sys2Proof/Laws/Exec.lean ====
section
/-! SUPPORT. The one shape of each command's meaning, so that a proof about all commands splits on the unit and not on eleven arms. -/

namespace Sys2Proof.Machine

/-- An I2C command's acceptance. -/
def acceptOf (i : Instr) : State → State :=
  match i with
  | .wrreg => acceptWrreg
  | .selreg => acceptSelreg
  | .rdbyte => acceptRdbyte
  | .rdbytes => acceptRdbytes
  | .busstop => acceptBusstop
  | i => acceptEng i.opcode

/-- A command's success results. -/
def resultsOf (i : Instr) : State → State :=
  match i with
  | .rdbyte | .rdbytes => receiveResults
  | _ => noResults

/-- An engine command's completion step. -/
def completeOf (i : Instr) : State → State :=
  match i with
  | .ldcala => completeLdcala
  | .ldcalb => completeLdcalb
  | .ldrawt => completeLdrawt
  | .ldrawh => completeLdrawh
  | .compt => completeCompt
  | .comph => completeComph
  | _ => id

theorem exec_fsm {i : Instr} (h : i.isFsm = true) (s : State) :
    exec i s = fsmCommand i.opcode (acceptOf i) (resultsOf i) s := by
  cases i <;> first | rfl | cases h

theorem exec_eng {i : Instr} (h : i.isFsm = false) (s : State) :
    exec i s = engCommand i.opcode (completeOf i) s := by
  cases i <;> first | rfl | cases h

/-- With the block idle, every command is accepted (R92, R283). -/
theorem exec_idle {s : State} (h : s.busy = false) (i : Instr) : exec i s = .next (acceptOf i s) := by
  cases hi : i.isFsm
  · rw [exec_eng hi, engCommand, commandStep_idle h]
    cases i <;> first | rfl | cases hi
  · rw [exec_fsm hi, fsmCommand, commandStep_idle h]

/-- The I2C command in progress takes the FSM's next step. -/
theorem exec_fsmRunning {i : Instr} {s : State} (hi : i.isFsm = true) (hp : s.phase ≠ .idle) (hc : s.cur = i.opcode) :
    exec i s = fsmStep (resultsOf i) s := by
  have hr : fsmRuns i.opcode s = true := by simp [fsmRuns, hp, hc]
  rw [exec_fsm hi, fsmCommand, hr, commandStep_running (busy_eq_true.2 (.inl hp))]

/-- The engine command pending completes (R170). -/
theorem exec_engRunning {i : Instr} {s : State} (hi : i.isFsm = false) (hp : s.engPending = true) (hl : s.lastCmd = i.opcode) :
    exec i s = .next (completeOf i s) := by
  have hr : engRuns i.opcode s = true := by simp [engRuns, hp, hl]
  rw [exec_eng hi, engCommand, hr, commandStep_running (busy_eq_true.2 (.inr hp))]

/-- Everything an engine command's completion can do (R170, R171): it ends with a nonzero code and writes nothing else, or its checks
hold and it writes its results. -/
inductive CompleteEffect (s : State) : Instr → State → Prop
  | refused (i : Instr) (c : StatusCode) : c ≠ .ok → CompleteEffect s i (finishEng c s)
  | ldcala : received 26 s = true → CompleteEffect s .ldcala (loadBlock1 s)
  | ldcalb : received 8 s = true → s.cala = true → CompleteEffect s .ldcalb (loadBlock2 s)
  | ldrawt : received 3 s = true → CompleteEffect s .ldrawt (loadRawt s)
  | ldrawh : received 2 s = true → CompleteEffect s .ldrawh (loadRawh s)
  | compt : calibrated s = true → CompleteEffect s .compt (compensateTemperature s)
  | comph : calibrated s = true → s.tfv = true → CompleteEffect s .comph (compensateHumidity s)

theorem completeOf_effect {i : Instr} (hi : i.isFsm = false) (s : State) : CompleteEffect s i (completeOf i s) := by
  cases i with
  | wrreg | selreg | rdbyte | rdbytes | busstop => cases hi
  | ldcala =>
    cases h : received 26 s
    · rw [completeOf, completeLdcala, engCheck_false h]; exact .refused _ _ (by decide)
    · rw [completeOf, completeLdcala, engCheck_true h]; exact .ldcala h
  | ldcalb =>
    cases h : received 8 s
    · rw [completeOf, completeLdcalb, engCheck_false h]; exact .refused _ _ (by decide)
    · rw [completeOf, completeLdcalb, engCheck_true h]
      cases h2 : s.cala
      · rw [engCheck_false rfl]; exact .refused _ _ (by decide)
      · rw [engCheck_true rfl]; exact .ldcalb h h2
  | ldrawt =>
    cases h : received 3 s
    · rw [completeOf, completeLdrawt, engCheck_false h]; exact .refused _ _ (by decide)
    · rw [completeOf, completeLdrawt, engCheck_true h]; exact .ldrawt h
  | ldrawh =>
    cases h : received 2 s
    · rw [completeOf, completeLdrawh, engCheck_false h]; exact .refused _ _ (by decide)
    · rw [completeOf, completeLdrawh, engCheck_true h]; exact .ldrawh h
  | compt =>
    cases h : calibrated s
    · rw [completeOf, completeCompt, engCheck_false h]; exact .refused _ _ (by decide)
    · rw [completeOf, completeCompt, engCheck_true h]; exact .compt h
  | comph =>
    cases h : calibrated s
    · rw [completeOf, completeComph, engCheck_false h]; exact .refused _ _ (by decide)
    · rw [completeOf, completeComph, engCheck_true h]
      cases h2 : s.tfv
      · rw [engCheck_false rfl]; exact .refused _ _ (by decide)
      · rw [engCheck_true rfl]; exact .comph h h2

/-- Everything a command's acceptance can do (R92): a transaction starts, or the command finishes at once, or the ENG has it pending; a
receive has cleared RXLEN before. -/
inductive AcceptEffect (s : State) : Instr → State → Prop
  | wrreg : AcceptEffect s .wrreg (startTransaction 0x01 (seqWrreg s.dev s.regidx s.wdata) s)
  | selreg : AcceptEffect s .selreg (startTransaction 0x02 (seqSelreg s.dev s.regidx s.selhold) s)
  | rdbyte : AcceptEffect s .rdbyte (startTransaction 0x03 (seqRdbyte s.dev) { s with rxlen := 0 })
  | burst : s.count.toNat ≤ Config.rxDepth →
      AcceptEffect s .rdbytes (startTransaction 0x04 (seqRdbytes s.dev (burstLength s.count)) { s with rxlen := 0 })
  | tooLong : Config.rxDepth < s.count.toNat →
      AcceptEffect s .rdbytes (finishAtAcceptance 0x04 .errCount { s with rxlen := 0 })
  | release : s.held = true → AcceptEffect s .busstop (startTransaction 0x05 seqBusstop s)
  | notHeld : s.held = false → AcceptEffect s .busstop (finishAtAcceptance 0x05 .ok s)
  | engine (i : Instr) : i.isFsm = false → AcceptEffect s i (acceptEng i.opcode s)

theorem acceptOf_effect (i : Instr) (s : State) : AcceptEffect s i (acceptOf i s) := by
  cases i with
  | wrreg => exact .wrreg
  | selreg => exact .selreg
  | rdbyte => exact .rdbyte
  | rdbytes =>
    simp only [acceptOf, acceptRdbytes]
    split
    · next h => exact .tooLong h
    · next h => exact .burst (Nat.le_of_not_lt h)
  | busstop =>
    simp only [acceptOf, acceptBusstop]
    split
    · next h => exact .release h
    · next h => exact .notHeld (by simpa using h)
  | ldcala | ldcalb | ldrawt | ldrawh | compt | comph => exact .engine _ rfl

/-- What R90 calls UNIT tells the I2C commands' OPCODEs from the engine's. -/
theorem opcode_injective {i j : Instr} (h : i.opcode = j.opcode) : i = j := by
  have := (decodeOpcode_opcode i).symm.trans (h ▸ decodeOpcode_opcode j)
  cases this; rfl

end Sys2Proof.Machine
end

