-- ==== Sys2Proof/Laws/Agents.lean ====
section
/-! SUPPORT. Everything one step of the machine can do, said once: every invariant of the machine follows from these cases. -/

namespace Sys2Proof.Machine

/-- The HOST's present operation is a write of v, which the port takes, to this register. -/
def HostWrites (s : State) (r : HostReg) (v : Word) : Prop :=
  ∃ off : Nat, off % 4 = 0 ∧ off < 0x200 ∧ regAt off = r ∧ s.host.prog[s.host.pc]? = some (.w off 4 v)

/-- The move's own step is not enabled (R111, R112, R170); a HOST's move can always come to nothing, a reset never. -/
def Move.notEnabled (m : Move) (s : State) : Prop :=
  match m with
  | .host => True
  | .fsm => s.phase ≠ .issue
  | .be _ _ => s.phase ≠ .wait
  | .eng => s.engPending = false
  | .reset => False

/-- What this move of one agent can turn a state into. -/
inductive MoveEffect : Move → State → State → Prop
  /-- The move is not enabled, or the HOST is at its program's end. -/
  | nothing (m : Move) (s : State) : m.notEnabled s → MoveEffect m s s
  /-- The HOST does something of its own: a read, a branch, a sleep, its status record. -/
  | host (s : State) (h : HostAgent) : MoveEffect .host s { s with host := h }
  /-- The HOST writes a register while BUSY = 1. -/
  | ignored (s : State) (h : HostAgent) : s.busy = true → MoveEffect .host s (ignoredWrite { s with host := h })
  /-- The HOST writes a register other than CMD while BUSY = 0. -/
  | store (s : State) (h : HostAgent) (r : HostReg) (v : Word) :
      HostWrites s r v → s.busy = false → MoveEffect .host s (storeReg r v { s with host := h })
  /-- A command is accepted. -/
  | accept (s : State) (h : HostAgent) (v : Word) (i : Instr) (t : State) :
      HostWrites s .cmd v → decode v = .ok i → s.busy = false → AcceptEffect { s with host := h } i t → MoveEffect .host s t
  /-- An illegal opcode is accepted. -/
  | illegal (s : State) (h : HostAgent) (v : Word) (op : Byte) :
      HostWrites s .cmd v → s.busy = false → legalOpcode op = false → MoveEffect .host s (illegalOpcode op { s with host := h })
  /-- The FSM issues SEQ[K]. -/
  | issue (s : State) (i : Instr) (st : SeqStep) :
      i.isFsm = true → s.cur = i.opcode → s.phase = .issue → s.seq[s.k]? = some st →
      MoveEffect .fsm s { s with busLog := st.action :: s.busLog, phase := .wait }
  /-- The BE's answer fails the step. -/
  | fail (s : State) (i : Instr) (st : SeqStep) (a : BeAnswer) (f : StatusCode) :
      i.isFsm = true → s.cur = i.opcode → s.phase = .wait → s.seq[s.k]? = some st → st.check.failure a.cond = some f →
      MoveEffect (.be a.cond a.rxb) s (finishFsm f { s with beAnswer := none })
  /-- The BE's answer meets the step's condition. -/
  | pass (s : State) (i : Instr) (st : SeqStep) (a : BeAnswer) :
      i.isFsm = true → s.cur = i.opcode → s.phase = .wait → s.seq[s.k]? = some st → st.check.failure a.cond = none →
      MoveEffect (.be a.cond a.rxb) s (advanceOrComplete (resultsOf i) (stepEffect st a.rxb { s with beAnswer := none }))
  /-- The ENG completes. -/
  | complete (s : State) (i : Instr) (t : State) :
      i.isFsm = false → s.lastCmd = i.opcode → s.engPending = true → CompleteEffect s i t → MoveEffect .eng s t
  /-- The block is reset. -/
  | reset (s : State) : MoveEffect .reset s (resetBlock s)

theorem fsmInstr_some {s : State} {i : Instr} (h : fsmInstr s = some i) : i.isFsm = true ∧ s.cur = i.opcode := by
  unfold fsmInstr at h
  split at h
  · next j hj =>
    split at h
    · next hf => cases h; exact ⟨hf, (decodeOpcode_ok hj).1.symm⟩
    · cases h
  · cases h

theorem engInstr_some {s : State} {i : Instr} (h : engInstr s = some i) : i.isFsm = false ∧ s.lastCmd = i.opcode := by
  unfold engInstr at h
  split at h
  · next j hj =>
    split at h
    · cases h
    · next hf => cases h; exact ⟨by simpa using hf, (decodeOpcode_ok hj).1.symm⟩
  · cases h

theorem stepCommand_next {o : Option Instr} {s t : State} (h : stepCommand o s = .next t) :
    ∃ i, o = some i ∧ exec i s = .next t := by
  unfold stepCommand at h
  split at h
  · exact ⟨_, rfl, h⟩
  · cases h

/-- The only offset of CMD and the only one of RAWT (R62). -/
theorem regAt_cmd {off : Nat} (h : regAt off = .cmd) : off = 0x000 := by
  unfold regAt at h
  split at h <;> first | rfl | cases h | skip
  split at h <;> cases h

theorem regAt_rawt {off : Nat} (h : regAt off = .rawt) : off = 0x020 := by
  unfold regAt at h
  split at h <;> first | rfl | cases h | skip
  split at h <;> cases h

/-- Everything a write at the port can do. -/
theorem writeReg_effect {r : HostReg} {v : Word} {s t : State} {h : HostAgent} (hh : HostWrites s r v)
    (hw : writeReg r v { s with host := h } = .next t) : MoveEffect .host s t := by
  by_cases hb : s.busy = true
  · rw [writeReg_busy (by simpa [State.busy] using hb)] at hw
    cases hw
    split
    · exact .ignored s h hb
    · exact .host s h
  · have hb : s.busy = false := by simpa using hb
    have hb' : State.busy { s with host := h } = false := by simpa [State.busy] using hb
    unfold writeReg at hw
    simp only [hb', Bool.false_eq_true, if_false] at hw
    split at hw
    · cases hd : decode v with
      | ok i =>
        rw [acceptWord_ok hd, exec_idle hb'] at hw
        cases hw
        exact .accept s h v i _ hh hd hb (acceptOf_effect i _)
      | error e =>
        rw [acceptWord_error hd] at hw
        cases hw
        rw [decode_eq_decodeOpcode] at hd
        exact .illegal s h v _ hh hb (decodeOpcode_error hd).2
    · cases hw
      exact .store s h _ v hh hb

/-- Everything one operation of the HOST can do. -/
theorem runHostOp_effect {op : HostOp} {s t : State} (hop : s.host.prog[s.host.pc]? = some op)
    (h : runHostOp op s = .next t) : MoveEffect .host s t := by
  unfold runHostOp at h
  split at h
  · unfold memWrite at h
    split at h
    · cases h
    · next off bytes v _ ha =>
      have ha := accessRefusal_eq_none.1 ha
      simp only [wellFormedAccess, accessSizeOk, accessAlignedOk, accessInWindow, Config.windowBytes, Bool.and_eq_true,
        beq_iff_eq, decide_eq_true_eq] at ha
      obtain ⟨⟨rfl, h4⟩, h0, hl⟩ := ha
      have hl : off < 512 := of_decide_eq_true hl
      obtain ⟨n, rfl⟩ := Int.eq_ofNat_of_zero_le h0
      exact writeReg_effect (h := { s.host with pc := s.host.pc + 1 }) ⟨n, by omega, by omega, rfl, hop⟩ h
  case h_10 =>
    cases h
    obtain ⟨h, hs⟩ := hostReturn_frame s
    exact hs ▸ .host s h
  all_goals
    try split at h
    all_goals
      cases h
      try split
      all_goals exact .host s _

theorem hostStep_effect {s t : State} (h : hostStep s = .next t) : MoveEffect .host s t := by
  unfold hostStep at h
  split at h
  · cases h; exact .nothing _ s trivial
  · next op hop => exact runHostOp_effect hop h

@[simp] theorem hostExec_length (i : Instr) : (hostExec i).length = 3 := rfl
@[simp] theorem hostExecOr_length (i : Instr) (st : HostStatus) : (hostExecOr i st).length = 6 := rfl

/-- The HOST's step at the operation that its program has there. -/
theorem hostStep_at {s : State} {op : HostOp} (h : s.host.prog[s.host.pc]? = some op) : hostStep s = runHostOp op s := by
  simp [hostStep, h]

/-- With the block idle and no move planned, the machine's next step is the HOST's, if it has one. -/
theorem runNext_hostAlone {s : State} (hb : s.busy = false) (hm : s.moves = []) :
    runNext s = if hostActive s then hostStep s else .next s := by
  simp only [State.busy, Bool.or_eq_false_iff, bne_eq_false_iff_eq] at hb
  cases h : hostActive s <;> simp [runNext, unplannedMove, runMove, hm, hb, h]

/-- Everything one move can do. -/
theorem runMove_effect {m : Move} {s t : State} (h : runMove m s = .next t) : MoveEffect m s t := by
  cases m with
  | host => exact hostStep_effect h
  | fsm =>
    simp only [runMove] at h
    split at h
    · next hp =>
      obtain ⟨i, hi, hx⟩ := stepCommand_next h
      obtain ⟨hf, hc⟩ := fsmInstr_some hi
      rw [exec_fsmRunning hf (by simp [hp]) hc] at hx
      rcases fsmStep_next hx with ⟨hq, -⟩ | ⟨-, hq⟩ | ⟨hq, -⟩
      · simp [hp] at hq
      · obtain ⟨st, hst, rfl⟩ := fsmIssue_next hq
        exact .issue s i st hf hc hp hst
      · simp [hp] at hq
    · next hp => cases h; exact .nothing _ s hp
  | be c r =>
    simp only [runMove] at h
    split at h
    · next hp =>
      obtain ⟨i, hi, hx⟩ := stepCommand_next h
      obtain ⟨hf, hc⟩ := fsmInstr_some hi
      have hx := (exec_fsmRunning (s := { s with beAnswer := some ⟨c, r⟩ }) hf (by simp [hp]) hc).symm.trans hx
      rcases fsmStep_next hx with ⟨hq, -⟩ | ⟨hq, -⟩ | ⟨-, hq⟩
      · simp [hp] at hq
      · simp [hp] at hq
      · rcases fsmAnswer_next hq with ⟨hq, -⟩ | ⟨a, st, ha, hst, hq⟩
        · cases hq
        · cases ha
          rcases hq with ⟨f, hf', rfl⟩ | ⟨hf', rfl⟩
          · exact .fail s i st ⟨c, r⟩ f hf hc hp hst hf'
          · exact .pass s i st ⟨c, r⟩ hf hc hp hst hf'
    · next hp => cases h; exact .nothing _ s hp
  | eng =>
    simp only [runMove] at h
    split at h
    · next hp =>
      obtain ⟨i, hi, hx⟩ := stepCommand_next h
      obtain ⟨hf, hl⟩ := engInstr_some hi
      rw [exec_engRunning hf hp hl] at hx
      cases hx
      exact .complete s i _ hf hl hp (completeOf_effect hf s)
    · next hp => cases h; exact .nothing _ s (Bool.eq_false_iff.2 hp)
  | reset => cases h; exact .reset s

/-- A step is one move, planned or not, or nothing at all. -/
theorem step_eq (s : State) :
    (∃ m rest, s.moves = m :: rest ∧ step s = runMove m { s with moves := rest }) ∨
    (∃ m, s.moves = [] ∧ unplannedMove s = some m ∧ step s = runMove m s) ∨
    (s.moves = [] ∧ unplannedMove s = none ∧ step s = .next s) := by
  unfold step runNext
  split
  · next m rest hm => exact .inl ⟨m, rest, hm, rfl⟩
  · next hm =>
    split
    · next m hu => exact .inr (.inl ⟨m, hm, hu, rfl⟩)
    · next hu => exact .inr (.inr ⟨hm, hu, rfl⟩)

/-- Everything a step can do: the effect of the next planned move, or, with none planned, of a move of the HOST, the FSM or the ENG. -/
theorem step_effect {s t : State} (h : step s = .next t) :
    ∃ m ms, (s.moves = m :: ms ∨ (s.moves = [] ∧ ms = s.moves ∧ (m = .host ∨ m = .fsm ∨ m = .eng)))
      ∧ MoveEffect m { s with moves := ms } t := by
  rcases step_eq s with ⟨m, rest, hm, hs⟩ | ⟨m, hm, hu, hs⟩ | ⟨hm, -, hs⟩
  · exact ⟨m, rest, .inl hm, runMove_effect (hs ▸ h)⟩
  · have hk : m = .host ∨ m = .fsm ∨ m = .eng := by
      unfold unplannedMove at hu
      split at hu
      · cases hu; exact .inr (.inr rfl)
      · split at hu
        · cases hu; exact .inr (.inl rfl)
        · split at hu <;> cases hu
          exact .inl rfl
    exact ⟨m, s.moves, .inr ⟨hm, rfl, hk⟩, runMove_effect (hs ▸ h)⟩
  · rw [hs] at h
    cases h
    exact ⟨.host, s.moves, .inr ⟨hm, rfl, .inl rfl⟩, .nothing .host _ trivial⟩

/-- Everything an advance or a completion leaves alone, with a step's success effect before it: all but the FSM's place, CODE, RXLEN, HELD and
RXBUF (R114 to R118); HELD and RXBUF are what the success effect made them. -/
theorem passed_eq (i : Instr) (st : SeqStep) (rxb : Byte) (s : State) :
    ∃ c ln ph k, advanceOrComplete (resultsOf i) (stepEffect st rxb s) =
      { s with
        code := c, rxlen := ln, phase := ph, k := k
        held := (stepEffect st rxb s).held, rxbuf := (stepEffect st rxb s).rxbuf } := by
  have hr : ∀ u : State, ∃ ln, resultsOf i u = { u with rxlen := ln } := by
    intro u
    cases i <;> exact ⟨_, rfl⟩
  obtain ⟨hd, rb, hs⟩ := stepEffect_eq st rxb s
  rw [hs]
  rcases advanceOrComplete_cases (resultsOf i) { s with held := hd, rxbuf := rb } with ⟨-, hx⟩ | ⟨-, hx⟩
  · obtain ⟨ln, hl⟩ := hr { s with held := hd, rxbuf := rb }
    rw [hx, hl]
    exact ⟨_, _, _, _, rfl⟩
  · rw [hx]
    exact ⟨_, _, _, _, rfl⟩

end Sys2Proof.Machine
end

