-- ==== Sys2Proof/Laws/Bus.lean ====
section
/-! SUPPORT. The small lemmas of the step lists: their lengths, what stands at each index of a burst, how many bytes come before it, and
that a STOP comes last (spec/41_i2c_transactions.md). -/

namespace Sys2Proof.Machine

@[simp] theorem isRecv_startStep : startStep.isRecv = false := rfl
@[simp] theorem isRecv_addrWStep (d : BitVec 7) : (addrWStep d).isRecv = false := rfl
@[simp] theorem isRecv_addrRStep (d : BitVec 7) : (addrRStep d).isRecv = false := rfl
@[simp] theorem isRecv_dataStep (b : Byte) : (dataStep b).isRecv = false := rfl
@[simp] theorem isRecv_recvAckStep : recvAckStep.isRecv = true := rfl
@[simp] theorem isRecv_recvNackStep : recvNackStep.isRecv = true := rfl
@[simp] theorem isRecv_stopStep : stopStep.isRecv = false := rfl

/-- The condition codes a START accepts (R114). -/
theorem failure_startStep (c : Byte) :
    startStep.check.failure c = if c = 0x08 ∨ c = 0x10 then none else some .errStart := by
  simp [startStep, Check.failure, condStart, condRStart]

theorem failure_addrWStep (d : BitVec 7) (c : Byte) :
    (addrWStep d).check.failure c = if c = 0x18 then none else some .errAddrW := by
  simp [addrWStep, Check.failure, condSlawAck]

theorem failure_addrRStep (d : BitVec 7) (c : Byte) :
    (addrRStep d).check.failure c = if c = 0x40 then none else some .errAddrR := by
  simp [addrRStep, Check.failure, condSlarAck]

theorem failure_dataStep (b c : Byte) :
    (dataStep b).check.failure c = if c = 0x28 then none else some .errDataW := by
  simp [dataStep, Check.failure, condDtxAck]

theorem failure_recvAckStep (c : Byte) :
    recvAckStep.check.failure c = if c = 0x50 then none else some .errDataR := by
  simp [recvAckStep, Check.failure, condDrxAck]

theorem failure_recvNackStep (c : Byte) :
    recvNackStep.check.failure c = if c = 0x58 then none else some .errDataR := by
  simp [recvNackStep, Check.failure, condDrxNack]

/-- The STOP step "cannot fail" (R117). -/
@[simp] theorem failure_stopStep (c : Byte) : stopStep.check.failure c = none := rfl

@[simp] theorem length_seqWrreg (d : BitVec 7) (r v : Byte) : (seqWrreg d r v).length = 5 := rfl

@[simp] theorem length_seqSelreg (d : BitVec 7) (r : Byte) (h : Bool) :
    (seqSelreg d r h).length = if h then 3 else 4 := by
  cases h <;> rfl

@[simp] theorem length_seqRdbyte (d : BitVec 7) : (seqRdbyte d).length = 4 := rfl

@[simp] theorem length_seqBusstop : seqBusstop.length = 1 := rfl

/-- "SEQ length is n + 3" (R146). -/
theorem length_seqRdbytes (d : BitVec 7) {n : Nat} (h : 1 ≤ n) : (seqRdbytes d n).length = n + 3 := by
  simp [seqRdbytes]; omega

/-- "When n = 1 ... SEQ is exactly RDBYTE's" (R146). -/
theorem seqRdbytes_one (d : BitVec 7) : seqRdbytes d 1 = seqRdbyte d := rfl

theorem one_le_burstLength (c : Byte) : 1 ≤ burstLength c := Nat.le_max_left _ _

@[simp] theorem recvCount_seqRdbyte (d : BitVec 7) : recvCount (seqRdbyte d) = 1 := by
  simp [recvCount, seqRdbyte, List.countP_cons]

/-- A burst of n bytes has n RECV steps (R118, R146). -/
theorem recvCount_seqRdbytes (d : BitVec 7) {n : Nat} (h : 1 ≤ n) : recvCount (seqRdbytes d n) = n := by
  simp [recvCount, seqRdbytes, List.countP_cons, List.countP_replicate]; omega

/-- The rows of R146's table, by K. -/
theorem seqRdbytes_zero (d : BitVec 7) (n : Nat) : (seqRdbytes d n)[0]? = some startStep := by simp [seqRdbytes]

theorem seqRdbytes_addr (d : BitVec 7) (n : Nat) : (seqRdbytes d n)[1]? = some (addrRStep d) := by simp [seqRdbytes]

theorem seqRdbytes_ack (d : BitVec 7) {n j : Nat} (h : j + 1 < n) : (seqRdbytes d n)[j + 2]? = some recvAckStep := by
  simp only [seqRdbytes, List.cons_append, List.nil_append, List.getElem?_cons_succ]
  rw [List.getElem?_append_left (by simp; omega)]
  simp [List.getElem?_replicate]; omega

theorem seqRdbytes_nack (d : BitVec 7) (n : Nat) : (seqRdbytes d (n + 1))[n + 2]? = some recvNackStep := by
  simp [seqRdbytes]

theorem seqRdbytes_stop (d : BitVec 7) (n : Nat) : (seqRdbytes d (n + 1))[n + 3]? = some stopStep := by
  simp only [seqRdbytes, List.cons_append, List.nil_append, List.getElem?_cons_succ]
  rw [List.getElem?_append_right (by simp)]
  simp

/-- j bytes come before step j + 2 of a burst (R116). -/
theorem recvIndex_seqRdbytes (d : BitVec 7) {n j : Nat} (h : j < n) : recvIndex (seqRdbytes d n) (j + 2) = j := by
  simp only [recvIndex, seqRdbytes, List.cons_append, List.nil_append, List.take_succ_cons]
  rw [List.take_append_of_le_length (by simp; omega)]
  simp [List.countP_replicate]; omega

/-- In a list whose only STOP is the last step, a STOP stands last. -/
theorem stop_only_last {l : List SeqStep} (h : ∀ x ∈ l, x.action ≠ .stop) {k : Nat} {st : SeqStep}
    (hk : (l ++ [stopStep])[k]? = some st) (hs : st.action = .stop) : k = l.length := by
  rw [List.getElem?_append] at hk
  split at hk
  · exact absurd hs (h st (List.mem_of_getElem? hk))
  · next hl =>
    have := (List.getElem?_eq_some_iff.1 hk).1
    simp at this; omega

end Sys2Proof.Machine
end

