-- ==== Sys2Proof/Laws/PerInstr.lean ====
section
/-! SUPPORT. What holds of every command as syntax, command by command: one family, `Encoding`. -/

namespace Sys2Proof.Laws.Encoding

/-- A command is well formed, its encoded word passes the check on words, and the word is the number 16 * UNIT + FUNC (R90, R93). -/
def Statement (i : Instr) : Prop :=
  Instr.wf i = true ∧ wellFormedWord (encode i) = true ∧ (encode i).toNat = 16 * i.unit.toNat + i.func.toNat

theorem wrreg : Statement .wrreg := by unfold Statement; decide

theorem selreg : Statement .selreg := by unfold Statement; decide

theorem rdbyte : Statement .rdbyte := by unfold Statement; decide

theorem rdbytes : Statement .rdbytes := by unfold Statement; decide

theorem busstop : Statement .busstop := by unfold Statement; decide

theorem ldcala : Statement .ldcala := by unfold Statement; decide

theorem ldcalb : Statement .ldcalb := by unfold Statement; decide

theorem ldrawt : Statement .ldrawt := by unfold Statement; decide

theorem ldrawh : Statement .ldrawh := by unfold Statement; decide

theorem compt : Statement .compt := by unfold Statement; decide

theorem comph : Statement .comph := by unfold Statement; decide

end Sys2Proof.Laws.Encoding
end

