-- ==== Sys2Proof/Tests/Slice0.lean ====
section
/-! SUPPORT. The model's own tests. Expected values come from spec/95_test_vectors.md and the corner tables of spec/43_compensation.md, named in
each comment; and for every statement with hypotheses, a state and operands that meet them. -/

namespace Sys2Proof.Tests

open Sys2Proof.Machine Sys2Proof.Safety Sys2Proof.Claims

/-! ### Small states -/

/-- A field of an outcome's next state. -/
def look {α : Type} (f : State → α) (o : Result) : Option α :=
  match o with
  | .next t => some (f t)
  | .fault _ | .refused _ => none

/-- The state after reset with a known RXBUF. -/
def blank : State := { State.reset with rxbuf := Vector.replicate 32 0 }

/-- The operands of the vectors B1 to B26. -/
def bus : State := { blank with dev := 0x76, regidx := 0xE0, wdata := 0xB6 }

/-- s with these bytes received. -/
def received (l : List Byte) (s : State) : State :=
  { s with
    rxlen := BitVec.ofNat 8 l.length
    rxbuf := ⟨((List.range 32).map (fun i => l.getD i 0)).toArray, by simp⟩ }

/-- s with the command of i waiting at step k for the BE, which has given this answer. -/
def waiting (i : Instr) (k : Nat) (ans : Option BeAnswer) (s : State) : State :=
  { s with
    lastCmd := i.opcode, cur := i.opcode, seq := specSeq i s, phase := .wait, k := k
    held := true, beAnswer := ans }

/-- s with the engine command i pending. -/
def pending (i : Instr) (s : State) : State := { s with lastCmd := i.opcode, engPending := true }

/-- s with this program of the HOST and these moves to come. -/
def hosted (ms : List Move) (prog : List HostOp) (s : State) : State :=
  { s with moves := ms, host := { HostAgent.empty with prog := prog } }

/-- Calibration K of spec/95_test_vectors.md, complete. -/
def calK : State :=
  { blank with
    cal := { Calibration.zero with
      t1 := 27504, t2 := 26435, t3 := BitVec.ofInt 16 (-1000)
      h1 := 75, h2 := 362, h3 := 0, h4 := 313, h5 := 50, h6 := 30 }
    cala := true, calb := true }

/-- Calibration K with TFINE = 128422 valid, as CT1 leaves it. -/
def fineK : State := { calK with tfine := 128422, tfv := true }

/-- Calibration block 1 of V30. -/
def block1 : List Byte :=
  [0x70, 0x6B, 0x43, 0x67, 0x18, 0xFC, 0x7D, 0x8E, 0x43, 0xD6, 0xD0, 0x0B, 0x27]
  ++ [0x0B, 0x8C, 0x00, 0xF9, 0xFF, 0x8C, 0x3C, 0xF8, 0xC6, 0x70, 0x17, 0x00, 0x4B]

/-- Calibration block 2 of V31. -/
def block2 : List Byte := [0x6A, 0x01, 0x00, 0x13, 0x29, 0x03, 0x1E, 0x00]

/-! ### The checks refuse ill-formed terms -/

theorem test_wf_word_illegal_opcode : wellFormedWord 0x00000016 = false := by decide
theorem test_wf_word_high_bits_ignored : wellFormedWord 0xABCDEF14 = true := by decide
theorem test_wf_access_halfword : wellFormedAccess 0x008 2 = false := by decide
theorem test_wf_access_misaligned : wellFormedAccess 0x00A 4 = false := by decide
theorem test_wf_access_above_window : wellFormedAccess 0x200 4 = false := by decide
theorem test_wf_access_below_window : wellFormedAccess (-4) 4 = false := by decide
theorem test_wf_base_unaligned : wellFormedBase 0x40000100 = false := by decide
theorem test_wf_last_word_of_window : wellFormedAccess 0x1FC 4 = true := by decide

/-! ### Decoding, each word bit by bit from R93's map: 24 ignored bits, then UNIT, then FUNC -/

theorem test_decode_wrreg : decode 0b00000000000000000000000000000001 = .ok .wrreg := by decide
theorem test_decode_selreg : decode 0b00000000000000000000000000000010 = .ok .selreg := by decide
theorem test_decode_rdbyte : decode 0b00000000000000000000000000000011 = .ok .rdbyte := by decide
theorem test_decode_rdbytes : decode 0b00000000000000000000000000000100 = .ok .rdbytes := by decide
theorem test_decode_busstop : decode 0b00000000000000000000000000000101 = .ok .busstop := by decide
theorem test_decode_ldcala : decode 0b00000000000000000000000000010000 = .ok .ldcala := by decide
theorem test_decode_ldcalb : decode 0b00000000000000000000000000010001 = .ok .ldcalb := by decide
theorem test_decode_ldrawt : decode 0b00000000000000000000000000010010 = .ok .ldrawt := by decide
theorem test_decode_ldrawh : decode 0b00000000000000000000000000010011 = .ok .ldrawh := by decide
theorem test_decode_compt : decode 0b00000000000000000000000000010100 = .ok .compt := by decide
theorem test_decode_comph : decode 0b00000000000000000000000000010101 = .ok .comph := by decide
/-- M7: the high bits of a command word are ignored. -/
theorem test_decode_high_bits : decode 0b10101011110011011110111100010100 = .ok .compt := by decide
/-- M17. -/
theorem test_decode_illegal :
    [0x06, 0x0F, 0x16, 0x20, 0x80].map decode
      = [0x06, 0x0F, 0x16, 0x20, 0x80].map (fun b => Except.error (.illegalOpcode b)) := by decide
theorem test_decodeTableWord : decodeTableWord 32 0x12 = some .ldrawt ∧ decodeTableWord 32 0 = none := by decide
/-- No two rows of the opcode table overlap. -/
theorem test_table_rows_disjoint :
    opcodeTable.Pairwise (fun a b => a.bits &&& b.mask ≠ b.bits &&& a.mask) := by decide

/-! ### The commands, one step each -/

/-- B23: DEV = 0x7F gives SLA+W = 0xFE; B1: the order of the actions. -/
theorem test_wrreg_actions :
    look (fun t => (t.seq.map SeqStep.action, t.phase, t.k, t.lastCmd)) (exec .wrreg { bus with dev := 0x7F })
      = some ([.start, .send 0xFE, .send 0xE0, .send 0xB6, .stop], .issue, 0, 0x01) := by decide
/-- B5: the value byte answered 0x30 ends the command with code 4 and HELD = 1. -/
theorem test_wrreg_value_nack :
    look (fun t => (t.code, t.held, t.busy, t.rxlen)) (exec .wrreg (waiting .wrreg 3 (some ⟨0x30, 0⟩) bus))
      = some (.errDataW, true, false, 0) := by decide
/-- B17: with SELHOLD = 1 there is no STOP. -/
theorem test_selreg_held_actions :
    look (fun t => t.seq.map SeqStep.action) (exec .selreg { bus with regidx := 0xFA, selhold := true })
      = some [.start, .send 0xEC, .send 0xFA] := by decide
/-- B17: the index byte's ACK ends it with code 0 and HELD = 1. -/
theorem test_selreg_held_end :
    look (fun t => (t.code, t.held, t.busy))
      (exec .selreg (waiting .selreg 2 (some ⟨0x28, 0⟩) { bus with regidx := 0xFA, selhold := true }))
      = some (.ok, true, false) := by decide
/-- B7: the last byte answered as ACK is code 5, and RXBUF[0] is not written. -/
theorem test_rdbyte_wrong_phase :
    look (fun t => (t.code, t.held, t.rxlen, t.rxbuf[0]))
      (exec .rdbyte (waiting .rdbyte 2 (some ⟨0x50, 0x60⟩) bus))
      = some (.errDataR, true, 0, 0x00) := by decide
/-- B18: a repeated start is accepted. -/
theorem test_rdbyte_repeated_start :
    look (fun t => (t.phase, t.k, t.held)) (exec .rdbyte (waiting .rdbyte 0 (some ⟨0x10, 0⟩) bus))
      = some (.issue, 1, true) := by decide
/-- B10: the second byte of a burst goes to RXBUF[1]. -/
theorem test_rdbytes_second_byte :
    look (fun t => (t.k, t.rxbuf[0], t.rxbuf[1]))
      (exec .rdbytes (waiting .rdbytes 3 (some ⟨0x50, 0xED⟩) { received [0x7E] bus with count := 3 }))
      = some (4, 0x7E, 0xED) := by decide
/-- B14: N = 33 is code 6 at once; B13: N = 32 is 35 actions. -/
theorem test_rdbytes_limits :
    look (fun t => (t.code, t.busy)) (exec .rdbytes { bus with count := 33 }) = some (.errCount, false)
    ∧ look (fun t => t.seq.length) (exec .rdbytes { bus with count := 32 }) = some 35 := by decide
/-- B20: on a free bus BUSSTOP is a no-op with code 0. -/
theorem test_busstop_free :
    look (fun t => (t.code, t.held, t.busy)) (exec .busstop bus) = some (.ok, false, false) := by decide
/-- B21: on a held bus its STOP frees it. -/
theorem test_busstop_held :
    look (fun t => (t.code, t.held, t.busy)) (exec .busstop (waiting .busstop 0 (some ⟨0, 0⟩) bus))
      = some (.ok, false, false) := by decide
/-- V30. -/
theorem test_ldcala_block1 :
    look (fun t => [(t.cal.t1.toNat : Int), t.cal.t2.toInt, t.cal.t3.toInt, t.cal.p1.toNat, t.cal.p2.toInt, t.cal.p9.toInt, t.cal.h1.toNat])
      (exec .ldcala (pending .ldcala (received block1 blank)))
      = some [27504, 26435, -1000, 36477, -10685, 6000, 75] := by decide
/-- LD1: 25 bytes are too few. -/
theorem test_ldcala_short :
    look (fun t => (t.code, t.cala)) (exec .ldcala (pending .ldcala (received (block1.take 25) blank)))
      = some (.errNoRx, false) := by decide
/-- V31. -/
theorem test_ldcalb_block2 :
    look (fun t => (t.cal.h2.toInt, t.cal.h3.toNat, t.cal.h4.toInt, t.cal.h5.toInt, t.cal.h6.toInt, t.calb))
      (exec .ldcalb (pending .ldcalb (received block2 { blank with cala := true })))
      = some (362, 0, 313, 50, 30, true) := by decide
/-- LD6 and LD8: H4 and H6 are two's complement. -/
theorem test_ldcalb_signs :
    look (fun t => (t.cal.h4.toInt, t.cal.h5.toInt, t.cal.h6.toInt))
      (exec .ldcalb (pending .ldcalb (received [0, 0, 0, 0x80, 0x0F, 0x00, 0x80, 0] { blank with cala := true })))
      = some (-2033, 0, -128) := by decide
/-- LD9 and LD10. -/
theorem test_ldrawt_values :
    look (fun t => (t.rawt, t.tfv)) (exec .ldrawt (pending .ldrawt (received [0x7E, 0xED, 0x00] fineK))) = some (519888, false)
    ∧ look (fun t => t.rawt) (exec .ldrawt (pending .ldrawt (received [0xFF, 0xFF, 0xFF] fineK))) = some 0xFFFFF := by decide
/-- LD12. -/
theorem test_ldrawt_short :
    look (fun t => (t.code, t.rawt, t.tfv)) (exec .ldrawt (pending .ldrawt (received [0x7E, 0xED] fineK)))
      = some (.errNoRx, 0, true) := by decide
/-- LD13: TFV is unchanged. -/
theorem test_ldrawh_value :
    look (fun t => (t.rawh, t.tfv)) (exec .ldrawh (pending .ldrawh (received [0x6C, 0x2A] fineK))) = some (27690, true) := by decide
/-- LD15. -/
theorem test_ldrawh_short :
    look (fun t => (t.code, t.rawh)) (exec .ldrawh (pending .ldrawh (received [0x6C] fineK))) = some (.errNoRx, 0) := by decide

/-- TEMP, TFINE and the clamp flags that COMPT leaves. -/
def tempOf (rawt : BitVec 20) (s : State) : Option (Int × Int × Bool × Bool) :=
  look (fun t => (t.temp.toInt, t.tfine.toInt, t.tclo, t.tchi)) (exec .compt (pending .compt { s with rawt := rawt }))

/-- V1 (CT1) and CT9, where both products wrap. -/
theorem test_compt_values :
    tempOf 519888 calK = some (2508, 128422, false, false)
    ∧ tempOf 0xFFFFF { calK with cal := { calK.cal with t1 := 0, t2 := 0x8000, t3 := 32767 } } = some (-1, -48, false, false) := by
  decide +kernel
/-- R193's rows at both clamps. -/
theorem test_compt_clamps :
    [313695, 313696, 712487, 712488].map (fun r => look (fun t => (t.temp.toInt, t.tclo, t.tchi))
        (exec .compt (pending .compt { calK with rawt := r })))
      = [some (-4000, true, false), some (-4000, false, false), some (8500, false, false), some (8500, false, true)] := by
  decide +kernel

/-- HUM and the clamp flags that COMPH leaves. -/
def humOf (rawh : BitVec 16) (s : State) : Option (Nat × Bool × Bool) :=
  look (fun t => (t.hum.toNat, t.hclo, t.hchi)) (exec .comph (pending .comph { s with rawh := rawh }))

/-- CH1, CH4 and CH6. -/
theorem test_comph_values :
    humOf 30000 fineK = some (56317, false, false)
    ∧ humOf 30000 { fineK with tfine := BitVec.ofInt 32 (-2000000) } = some (6596, false, false)
    ∧ humOf 30000 { fineK with cal := { fineK.cal with h4 := BitVec.ofInt 12 (-2033) } } = some (102400, false, true) := by
  decide +kernel
/-- R197's rows at both clamps. -/
theorem test_comph_clamps :
    [0, 20188, 20189, 38146, 38147, 65535].map (fun r => humOf r fineK)
      = [some (0, true, false), some (0, true, false), some (0, false, false), some (102398, false, false),
         some (102400, false, true), some (102400, false, true)] := by
  decide +kernel

/-! ### The host port and the step -/

/-- M5: an illegal opcode gives code 15. -/
theorem test_illegal_word :
    look (fun t => (t.code, t.lastCmd, t.busy, t.ovr)) (memWrite 0x000 4 0 { blank with ovr := true })
      = some (.errIllegal, 0x00, false, false) := by decide
/-- M8 and M12: OVR while busy, but not for a reserved offset. -/
theorem test_busy_writes :
    look (fun t => (t.dev, t.ovr)) (memWrite 0x008 4 0x11 (waiting .wrreg 0 none bus)) = some (0x76, true)
    ∧ look (fun t => t.ovr) (memWrite 0x034 4 7 (waiting .wrreg 0 none bus)) = some false := by decide
/-- M13 and M14: RAWT clears TFV, RAWH does not. -/
theorem test_raw_writes :
    look (fun t => (t.rawt, t.tfv)) (memWrite 0x020 4 519888 fineK) = some (519888, false)
    ∧ look (fun t => (t.rawh, t.tfv)) (memWrite 0x024 4 30000 fineK) = some (30000, true) := by decide
/-- The example words of spec/95_test_vectors.md: 0x00000203 and 0x00070000. -/
theorem test_status_words :
    statusWord { blank with code := .errAddrR, held := true } = 0x00000203 ∧ statusWord fineK = 0x00070000 := by decide
/-- LD9 and the DEV of B23 read back zero-extended. -/
theorem test_operand_reads :
    readReg (regAt 0x020) { blank with rawt := 519888 } = 0x0007EED0 ∧ readReg (regAt 0x008) { blank with dev := 0x7F } = 0x0000007F := by
  decide
/-- V30 and LD6: signed calibration fields read sign-extended. -/
theorem test_signed_reads :
    readReg .calT3 { blank with cal := { blank.cal with t3 := 0xFC18 } } = 0xFFFFFC18
    ∧ readReg .calH4 { blank with cal := { blank.cal with h4 := 0x80F } } = 0xFFFFF80F := by decide
/-- M7 through the step: COMPT is accepted from a word with high bits set. -/
theorem test_step_runs_placed_word :
    look (fun t => (t.lastCmd, t.engPending)) (step (State.withFetchWord blank 32 0xABCDEF14)) = some (0x14, true) := by decide
/-- V37's CTRL_MEAS byte for (16, 16). -/
theorem test_ctrl_meas : ctrlMeas {} (encodeOversampling 16) (encodeOversampling 16) = 0xB5 := by decide

/-! ### Witnesses: for each statement with hypotheses, a state and operands that meet them all -/

theorem witness_StepRunsTheWrittenCommand :
    let s := hosted [.host, .fsm] [.w 0x000 4 0xABCDEF14] blank
    let u := hosted [] [.w 0x000 4 0xABCDEF14] blank
    decode 0xABCDEF14 = .ok .compt
    ∧ s.host.prog[s.host.pc]? = some (.w 0x000 4 0xABCDEF14) ∧ s.busy = false ∧ s.moves = [.host, .fsm]
    ∧ u.host.prog[u.host.pc]? = some (.w 0x000 4 0xABCDEF14) ∧ u.busy = false ∧ u.moves = [] := by decide

theorem witness_StepRunsTheCommandInProgress :
    let f := { waiting .wrreg 0 none bus with moves := [.fsm], phase := .issue }
    let b := { waiting .wrreg 0 none bus with moves := [.be 0x08 0] }
    let e := { pending .comph fineK with moves := [.eng] }
    (f.moves = [.fsm] ∧ f.phase = .issue ∧ f.cur = Instr.wrreg.opcode)
    ∧ (b.moves = [.be 0x08 0] ∧ b.phase = .wait ∧ b.cur = Instr.wrreg.opcode ∧ Instr.wrreg.isFsm = true)
    ∧ (e.moves = [.eng] ∧ e.engPending = true ∧ e.lastCmd = Instr.comph.opcode ∧ Instr.comph.isFsm = false) := by decide

/-- All five, RDBYTES at the largest burst and BUSSTOP on a held bus. -/
theorem witness_I2cCommandsAreAccepted :
    let s := { bus with count := 32, held := true }
    s.busy = false ∧ ∀ i ∈ [Instr.wrreg, .selreg, .rdbyte, .rdbytes, .busstop], startsTransaction i s := by
  unfold startsTransaction; decide +kernel

theorem witness_OverlongBurstEndsAtAcceptance :
    ({ bus with count := 33 } : State).busy = false ∧ 32 < ({ bus with count := 33 } : State).count.toNat := by decide

theorem witness_BusstopOnFreeBusEndsAtAcceptance : bus.busy = false ∧ bus.held = false := by decide

theorem witness_EngineCommandsEndInTheirNextStep :
    fineK.busy = false ∧ ∀ i ∈ [Instr.ldcala, .ldcalb, .ldrawt, .ldrawh, .compt, .comph], i.isFsm = false := by decide

theorem witness_OtherCommandsAreTurnedAway :
    let s := waiting .wrreg 1 none bus
    s.busy = true ∧ ¬(s.phase ≠ .idle ∧ s.cur = Instr.compt.opcode) ∧ ¬(s.engPending = true ∧ s.lastCmd = Instr.compt.opcode) := by
  decide

/-- Every end of the three ranges. -/
theorem witness_IllegalOpcodeOnlyWritesItsCode :
    blank.busy = false ∧ ∀ v ∈ ([0x00, 0x06, 0x0F, 0x16, 0xFF] : List Word),
      v.toNat % 256 = 0 ∨ (0x06 ≤ v.toNat % 256 ∧ v.toNat % 256 ≤ 0x0F) ∨ 0x16 ≤ v.toNat % 256 :=
  ⟨rfl, by simp⟩

theorem witness_IssuePresentsTheActionAndWaits :
    let s := { waiting .wrreg 4 none bus with phase := .issue }
    let w := waiting .wrreg 4 none bus
    Instr.wrreg.isFsm = true ∧ s.cur = Instr.wrreg.opcode ∧ s.seq[s.k]? = some stopRow ∧ s.phase = .issue
    ∧ w.cur = Instr.wrreg.opcode ∧ w.seq[w.k]? = some stopRow ∧ w.phase = .wait ∧ w.beAnswer = none := by decide

theorem witness_FailedStepEndsTheCommand :
    let s := waiting .rdbyte 2 (some ⟨0x50, 0x60⟩) bus
    Instr.rdbyte.isFsm = true ∧ s.cur = Instr.rdbyte.opcode ∧ s.phase = .wait
    ∧ s.seq[s.k]? = some ⟨.recv false, .oneOf [0x58] .errDataR⟩ ∧ s.beAnswer = some ⟨0x50, 0x60⟩
    ∧ (0x50 : Byte) ∉ ([0x58] : List Byte) := by decide

/-- One state for each kind of action: START, SEND, RECV. -/
theorem witness_MetStepAdvances :
    let s (k : Nat) (c : Byte) := waiting .rdbytes k (some ⟨c, 0x7E⟩) { bus with count := 3 }
    (∀ p ∈ ([(0, 0x10), (1, 0x40), (3, 0x50)] : List (Nat × Byte)),
      (s p.1 p.2).cur = Instr.rdbytes.opcode ∧ (s p.1 p.2).phase = .wait ∧ (s p.1 p.2).k + 1 ≠ (s p.1 p.2).seq.length
      ∧ (s p.1 p.2).beAnswer = some ⟨p.2, 0x7E⟩)
    ∧ (s 0 0x10).seq[0]? = some startRow ∧ (0x10 : Byte) ∈ ([0x08, 0x10] : List Byte)
    ∧ (s 1 0x40).seq[1]? = some (row (.send 0xED) [0x40] .errAddrR)
    ∧ (s 3 0x50).seq[3]? = some (row (.recv true) [0x50] .errDataR) := by decide

theorem witness_WrregCompletes :
    let s := waiting .wrreg 4 (some ⟨0xF8, 0⟩) bus
    s.phase = .wait ∧ s.cur = 0x01 ∧ s.seq = specSeq .wrreg s ∧ s.k = 4 ∧ s.beAnswer = some ⟨0xF8, 0⟩ := by decide

theorem witness_SelregCompletes :
    let s := waiting .selreg 3 (some ⟨0xF8, 0⟩) bus
    let h := waiting .selreg 2 (some ⟨0x28, 0⟩) { bus with selhold := true }
    (s.phase = .wait ∧ s.cur = 0x02 ∧ s.seq = specSeq .selreg s ∧ s.beAnswer = some ⟨0xF8, 0⟩ ∧ s.selhold = false ∧ s.k = 3)
    ∧ (h.phase = .wait ∧ h.cur = 0x02 ∧ h.seq = specSeq .selreg h ∧ h.beAnswer = some ⟨0x28, 0⟩ ∧ h.selhold = true ∧ h.k = 2) := by
  decide

theorem witness_RdbyteCompletes :
    let s := waiting .rdbyte 3 (some ⟨0xF8, 0⟩) bus
    s.phase = .wait ∧ s.cur = 0x03 ∧ s.seq = specSeq .rdbyte s ∧ s.k = 3 ∧ s.beAnswer = some ⟨0xF8, 0⟩ := by decide

/-- N = 0 and N = 32. -/
theorem witness_RdbytesCompletes :
    ∀ n ∈ ([0, 32] : List Byte),
      let s := waiting .rdbytes (max 1 n.toNat + 2) (some ⟨0xF8, 0⟩) { bus with count := n }
      s.phase = .wait ∧ s.cur = 0x04 ∧ s.seq = specSeq .rdbytes s ∧ s.k = burst s + 2 ∧ s.beAnswer = some ⟨0xF8, 0⟩ := by decide

theorem witness_BusstopCompletes :
    let s := waiting .busstop 0 (some ⟨0xF8, 0⟩) bus
    s.phase = .wait ∧ s.cur = 0x05 ∧ s.seq = specSeq .busstop s ∧ s.k = 0 ∧ s.beAnswer = some ⟨0xF8, 0⟩ := by decide

/-- B1's answers for WRREG, B10's for RDBYTES with N = 3. -/
theorem witness_TransactionsSucceedAsTheirTablesSay :
    (bus.busy = false ∧ startsTransaction .wrreg bus
      ∧ List.Forall₂ (fun st (a : BeAnswer) => meets st a.cond) (specSeq .wrreg bus)
          [⟨0x08, 0⟩, ⟨0x18, 0⟩, ⟨0x28, 0⟩, ⟨0x28, 0⟩, ⟨0xF8, 0⟩])
    ∧ let s := { bus with count := 3 }
      s.busy = false ∧ startsTransaction .rdbytes s
      ∧ List.Forall₂ (fun st (a : BeAnswer) => meets st a.cond) (specSeq .rdbytes s)
          [⟨0x08, 0⟩, ⟨0x40, 0⟩, ⟨0x50, 0x7E⟩, ⟨0x50, 0xED⟩, ⟨0x58, 0x00⟩, ⟨0xF8, 0⟩] := by
  refine ⟨⟨by decide, by unfold startsTransaction; decide, ?_⟩, by decide, by unfold startsTransaction; decide, ?_⟩
  · simp [specSeq, meets]
  · simp [specSeq, meets, burst, List.replicate]

/-- B2, B8 and B9. -/
theorem witness_TransactionsFailAsTheirTablesSay :
    (bus.busy = false ∧ startsTransaction .wrreg bus ∧ (specSeq .wrreg bus)[0]? = some startRow
      ∧ (0x38 : Byte) ∉ ([0x08, 0x10] : List Byte))
    ∧ let s := { bus with count := 3 }
      s.busy = false ∧ startsTransaction .rdbytes s ∧ (specSeq .rdbytes s)[4]? = some (row (.recv false) [0x58] .errDataR)
      ∧ (0x50 : Byte) ∉ ([0x58] : List Byte)
      ∧ List.Forall₂ (fun st (a : BeAnswer) => meets st a.cond) ((specSeq .rdbytes s).take 4)
          [⟨0x08, 0⟩, ⟨0x40, 0⟩, ⟨0x50, 0x7E⟩, ⟨0x50, 0xED⟩] := by
  refine ⟨⟨by decide, by unfold startsTransaction; decide, by decide, by decide⟩, by decide,
    by unfold startsTransaction; decide, by decide, by decide, ?_⟩
  simp [specSeq, meets, burst, List.replicate]

/-- A transaction in progress at each of its steps, RDBYTES of two bytes, with these things around the block. -/
def inBurst (k : Nat) (ans : Option BeAnswer) (ms : List Move) (prog : List HostOp) : State :=
  hosted ms prog (waiting .rdbytes k ans { bus with count := 2 })

theorem inBurst_inTransaction {k : Nat} (h : k < 5) (ans : Option BeAnswer) (ms : List Move) (prog : List HostOp) :
    InTransaction .rdbytes (inBurst k ans ms prog) :=
  ⟨rfl, rfl, rfl, rfl,
    (by decide : specSeq .rdbytes { bus with count := 2 } = transactionSeq .rdbytes { bus with count := 2 }), h, fun _ => rfl,
    fun _ => (by decide : 2 ≤ 32), fun _ => rfl⟩

/-- The invariant of the units in a busy state that a run reaches. -/
theorem inBurst_control {k : Nat} (h : k < 5) (ms : List Move) (prog : List HostOp) : ControlInv (inBurst k none ms prog) :=
  ⟨fun hp => (by cases hp), fun _ => ⟨.rdbytes, inBurst_inTransaction h none ms prog⟩, fun hp => (by cases hp), rfl,
    (by decide : 0 ≤ 32)⟩

/-- START, SEND and both RECV steps, with arbitration lost and with a code R113 does not name; and a data byte, in WRREG. -/
theorem witness_ArbitrationLossFailsEveryStep :
    (∀ k, k < 4 → ∀ c ∈ ([0x38, 0xF8] : List Byte), let s := inBurst k (some ⟨c, 0⟩) [] []
      InTransaction .rdbytes s ∧ s.phase = .wait ∧ s.beAnswer = some ⟨c, 0⟩ ∧ (c = 0x38 ∨ c ∉ namedConditions)
      ∧ ∃ st, s.seq[s.k]? = some st ∧ st.action ≠ .stop)
    ∧ let s := waiting .wrreg 3 (some ⟨0x38, 0⟩) bus
      InTransaction .wrreg s ∧ s.phase = .wait ∧ s.seq[s.k]? = some (row (.send 0xB6) [0x28] .errDataW) := by
  constructor
  · intro k h c hc
    refine ⟨inBurst_inTransaction (by omega) _ _ _, rfl, rfl, ?_, ?_⟩
    · have : ∀ c ∈ ([0x38, 0xF8] : List Byte), c = 0x38 ∨ c ∉ namedConditions := by decide
      exact this c hc
    · have : ∀ k : Fin 4, ∃ st ∈ (inBurst 0 none [] []).seq, (inBurst 0 none [] []).seq[k.val]? = some st ∧ st.action ≠ .stop := by
        decide
      obtain ⟨st, -, h1, h2⟩ := this ⟨k, h⟩
      exact ⟨st, h1, h2⟩
  · exact ⟨⟨rfl, rfl, rfl, rfl, by decide, by decide, by decide, by decide, fun _ => rfl⟩, rfl, rfl⟩

theorem witness_LdcalaDecodesBlockOne :
    let s := pending .ldcala (received block1 blank)
    s.engPending = true ∧ s.lastCmd = 0x10 ∧ 26 ≤ s.rxlen.toNat := by decide

theorem witness_LdcalbDecodesBlockTwo :
    let s := pending .ldcalb (received block2 { blank with cala := true })
    s.engPending = true ∧ s.lastCmd = 0x11 ∧ 8 ≤ s.rxlen.toNat ∧ s.cala = true := by decide

theorem witness_LdrawtAssemblesTwentyBits :
    let s := pending .ldrawt (received [0x7E, 0xED, 0x00] fineK)
    s.engPending = true ∧ s.lastCmd = 0x12 ∧ 3 ≤ s.rxlen.toNat := by decide

theorem witness_LdrawhAssemblesSixteenBits :
    let s := pending .ldrawh (received [0x6C, 0x2A] fineK)
    s.engPending = true ∧ s.lastCmd = 0x13 ∧ 2 ≤ s.rxlen.toNat := by decide

theorem witness_ComptComputesTheTemperature :
    let s := pending .compt calK
    s.engPending = true ∧ s.lastCmd = 0x14 ∧ s.cala = true ∧ s.calb = true := by decide

theorem witness_ComphComputesTheHumidity :
    let s := pending .comph fineK
    s.engPending = true ∧ s.lastCmd = 0x15 ∧ s.cala = true ∧ s.calb = true ∧ s.tfv = true := by decide

/-- One state for each clause, the lengths at their boundaries. -/
theorem witness_EngineChecksInOrder :
    let n (i : Instr) (k : Nat) := pending i (received (List.replicate k 0) { blank with cala := true })
    (∀ i k, (n i k).engPending = true)
    ∧ ((n .ldcala 25).lastCmd = 0x10 ∧ (n .ldcala 25).rxlen.toNat < 26)
    ∧ ((n .ldcalb 7).lastCmd = 0x11 ∧ (n .ldcalb 7).rxlen.toNat < 8)
    ∧ ((n .ldrawt 2).lastCmd = 0x12 ∧ (n .ldrawt 2).rxlen.toNat < 3)
    ∧ ((n .ldrawh 1).lastCmd = 0x13 ∧ (n .ldrawh 1).rxlen.toNat < 2)
    ∧ (let s := { n .ldcalb 8 with cala := false }
       s.engPending = true ∧ s.lastCmd = 0x11 ∧ 8 ≤ s.rxlen.toNat ∧ s.cala = false)
    ∧ ((n .compt 0).lastCmd = 0x14 ∧ ¬((n .compt 0).cala = true ∧ (n .compt 0).calb = true))
    ∧ ((n .comph 0).lastCmd = 0x15 ∧ ¬((n .comph 0).cala = true ∧ (n .comph 0).calb = true))
    ∧ (let s := pending .comph calK
       s.engPending = true ∧ s.lastCmd = 0x15 ∧ s.cala = true ∧ s.calb = true ∧ s.tfv = false) := by
  refine ⟨fun _ _ => rfl, ?_⟩; decide

/-- Two different states with the same inputs, for each clause. -/
theorem witness_CompensationIsDeterministic :
    (let s := pending .compt calK
     let s' := pending .compt { calK with hum := 5 }
     s ≠ s' ∧ s.engPending = true ∧ s'.engPending = true ∧ s.lastCmd = 0x14 ∧ s'.lastCmd = 0x14
     ∧ s.cala = true ∧ s.calb = true ∧ s'.cala = true ∧ s'.calb = true ∧ s.rawt = s'.rawt ∧ s.cal = s'.cal
     ∧ (∃ t, exec .compt s = .next t) ∧ ∃ t, exec .compt s' = .next t)
    ∧ (let s := pending .comph fineK
       let s' := pending .comph { fineK with temp := 5 }
       s ≠ s' ∧ s.engPending = true ∧ s'.engPending = true ∧ s.lastCmd = 0x15 ∧ s'.lastCmd = 0x15
       ∧ s.cala = true ∧ s.calb = true ∧ s'.cala = true ∧ s'.calb = true ∧ s.tfv = true ∧ s'.tfv = true
       ∧ s.rawh = s'.rawh ∧ s.tfine = s'.tfine ∧ s.cal = s'.cal
       ∧ (∃ t, exec .comph s = .next t) ∧ ∃ t, exec .comph s' = .next t) := by
  refine ⟨⟨by decide, by decide, by decide, by decide, by decide, by decide, by decide, by decide, by decide, by decide, by decide,
    ⟨_, rfl⟩, _, rfl⟩, by decide, by decide, by decide, by decide, by decide, by decide, by decide, by decide, by decide, by decide,
    by decide, by decide, by decide, by decide, ⟨_, rfl⟩, _, rfl⟩

theorem witness_CompensatedValuesStayInRange :
    (let s := pending .compt calK
     s.engPending = true ∧ s.lastCmd = 0x14 ∧ s.cala = true ∧ s.calb = true ∧ ∃ t, exec .compt s = .next t)
    ∧ (let s := pending .comph fineK
       s.engPending = true ∧ s.lastCmd = 0x15 ∧ s.cala = true ∧ s.calb = true ∧ s.tfv = true ∧ ∃ t, exec .comph s = .next t) :=
  ⟨⟨rfl, by decide, rfl, rfl, _, rfl⟩, rfl, by decide, rfl, rfl, rfl, _, rfl⟩

theorem witness_EngineCommandsFrame :
    Instr.ldrawt.isFsm = false ∧ ∃ t, exec .ldrawt (pending .ldrawt (received [0x7E, 0xED, 0x00] fineK)) = .next t :=
  ⟨rfl, _, rfl⟩

theorem witness_I2cCommandsIgnoreTheEngine : Instr.rdbytes.isFsm = true := rfl

/-- A step that receives no byte, in a command that is no receive. -/
theorem witness_I2cCommandsFrame :
    let s := waiting .wrreg 3 (some ⟨0x28, 0⟩) bus
    Instr.wrreg.isFsm = true ∧ (∃ t, exec .wrreg s = .next t) ∧ isReceive .wrreg = false
    ∧ (∀ st, s.seq[s.k]? = some st → ∀ ack, st.action ≠ .recv ack) := by
  refine ⟨rfl, ⟨_, rfl⟩, rfl, ?_⟩
  rintro st ⟨⟩ ack ⟨⟩

/-- Accepted, and in progress. -/
theorem witness_WrregWritesOnlyItsOwnFields :
    (bus.busy = false ∧ ∃ t, exec .wrreg bus = .next t)
    ∧ (InTransaction .wrreg (waiting .wrreg 4 (some ⟨0xF8, 0⟩) bus)
       ∧ ∃ t, exec .wrreg (waiting .wrreg 4 (some ⟨0xF8, 0⟩) bus) = .next t) :=
  ⟨⟨by decide, _, rfl⟩, ⟨rfl, rfl, rfl, rfl, by decide, by decide, by decide, by decide, fun _ => rfl⟩, _, rfl⟩

/-- A listed and an unlisted offset, the first and the last of the window; and OVR cleared by an acceptance and by a reset. -/
theorem witness_WritesWhileBusyAreIgnored :
    ((waiting .wrreg 0 none bus).busy = true ∧ ∀ off ∈ [0x000, 0x024, 0x004, 0x1FC], off % 4 = 0 ∧ off < 0x200)
    ∧ (∃ t, step (hosted [.host] [.w 0x000 4 0] { bus with ovr := true }) = .next t ∧ t.ovr = false)
    ∧ ∃ t, step { bus with ovr := true, moves := [.reset] } = .next t ∧ t.ovr = false :=
  ⟨by decide, ⟨_, rfl, rfl⟩, _, rfl, rfl⟩

/-- Offsets that store nothing, and the HOST at a write, idle and busy. -/
theorem witness_WritesWhileIdleStoreDefinedBits :
    (fineK.busy = false ∧ ∀ off ∈ [0x004, 0x028, 0x1FC], off % 4 = 0 ∧ off < 0x200 ∧ off ∉ writableOffsets)
    ∧ (let s := hosted [.host] [.w 0x010 4 0x1B6] fineK
       s.moves = [.host] ∧ s.host.prog[s.host.pc]? = some (.w 0x010 4 0x1B6) ∧ s.busy = false)
    ∧ (let s := inBurst 1 none [.host] [.w 0x008 4 0x11]
       s.moves = [.host] ∧ s.host.prog[s.host.pc]? = some (.w 0x008 4 0x11) ∧ s.busy = true) := by decide

theorem witness_ReadAfterWriteIsMasked :
    blank.busy = false ∧ ∀ off ∈ ([0x008, 0x00C, 0x010, 0x014, 0x01C, 0x020, 0x024] : List Int),
      (look (fun _ => ()) (memWrite off 4 0xFFFFFFFF blank)).isSome := by decide

/-- Both ends of each reserved range. -/
theorem witness_ReservedOffsetsReadZero :
    ∀ off ∈ [0x034, 0x03C, 0x088, 0x0FC, 0x180, 0x1FC], off % 4 = 0 ∧ reservedOffset off := by
  unfold reservedOffset; decide

/-- One access for each ground, and the HOST's step of each kind. -/
theorem witness_BadAccessesAreRefused :
    (∀ p ∈ ([(0x008, 2), (0x00A, 4), (-4, 4), (0x200, 4)] : List (Int × Nat)),
      p.2 ≠ 4 ∨ p.1 % 4 ≠ 0 ∨ p.1 < 0 ∨ 0x200 ≤ p.1)
    ∧ (let s := hosted [.host] [.w 0x008 2 5] blank
       s.moves = [.host] ∧ s.host.prog[s.host.pc]? = some (.w 0x008 2 5))
    ∧ (let s := hosted [.host] [.r 0x200 4 0] blank
       s.moves = [.host] ∧ s.host.prog[s.host.pc]? = some (.r 0x200 4 0)) := by decide

theorem witness_ReadsChangeOnlyTheHost :
    let s := hosted [.host] [.r 0x028 4 7] { fineK with temp := 2508 }
    s.moves = [.host] ∧ s.host.prog[s.host.pc]? = some (.r 0x028 4 7)
    ∧ memRead 0x028 4 s = .ok 2508 := ⟨rfl, rfl, rfl⟩

theorem witness_AddressBitsGiveTheWordIndex : ∀ off ∈ [0x000, 0x1FC], off % 4 = 0 ∧ off < 0x200 := by decide

theorem witness_ResetAbandonsEverything : ({ waiting .wrreg 4 none bus with moves := [.reset] } : State).moves = [.reset] := rfl

theorem witness_StepKeepsControlInv :
    ControlInv (inBurst 4 none [.be 0xF8 0] []) ∧ ∃ t, step (inBurst 4 none [.be 0xF8 0] []) = .next t :=
  ⟨inBurst_control (by decide) _ _, _, rfl⟩

theorem witness_StepKeepsRangeInv :
    let s := { pending .comph { fineK with temp := 2508 } with moves := [.eng] }
    RangeInv s ∧ ∃ t, step s = .next t :=
  ⟨⟨by decide, by decide, by decide, by decide⟩, _, rfl⟩

/-- A state after COMPT, where TFV = 1. -/
theorem witness_StepKeepsFreshInv :
    let s := { blank with
      cala := true, calb := true, tfv := true
      tfine := thermalFine 0 Calibration.zero
      temp := compensatedTemp (thermalFine 0 Calibration.zero)
      tclo := clampedLow tempLo (centiDegrees (thermalFine 0 Calibration.zero))
      tchi := clampedHigh tempHi (centiDegrees (thermalFine 0 Calibration.zero))
      moves := [.eng] }
    FreshInv s ∧ s.tfv = true ∧ ∃ t, step s = .next t :=
  ⟨⟨fun _ => rfl, fun _ => ⟨rfl, rfl, rfl, rfl, rfl, rfl⟩⟩, rfl, _, rfl⟩

theorem witness_StepsNeverFault : ControlInv (inBurst 2 none [] []) := inBurst_control (by decide) _ _

/-- The HOST writes a register while the BE does not answer. -/
theorem witness_UnansweredActionHangsForEver :
    let s := inBurst 2 none [.host, .fsm, .eng] [.w 0x008 4 0x11]
    ControlInv s ∧ s.phase = .wait ∧ (∀ m ∈ s.moves, noAnswerNoReset m) ∧ ∃ t, Host.Core.run Sys2Proof.core 2 s = .next t :=
  ⟨inBurst_control (by decide) _ _, rfl, by simp [inBurst, hosted, noAnswerNoReset], _, rfl⟩

/-- A START that is granted, a STOP, and a reset change HELD; a START that fails does not (B2). -/
theorem witness_HeldChangesOnlyAtStartAndStop :
    (let s := { inBurst 0 none [.be 0x08 0] [] with held := false }
     s.moves = [.be 0x08 0] ∧ s.phase = .wait ∧ s.seq[s.k]? = some startRow ∧ meets startRow 0x08
       ∧ ∃ t, step s = .next t ∧ t.held ≠ s.held)
    ∧ (let s := inBurst 4 none [.be 0xF8 0] []
       s.moves = [.be 0xF8 0] ∧ s.phase = .wait ∧ s.seq[s.k]? = some stopRow ∧ meets stopRow 0xF8
         ∧ ∃ t, step s = .next t ∧ t.held ≠ s.held)
    ∧ (let s := { inBurst 0 none [.be 0x38 0] [] with held := false }
       s.moves = [.be 0x38 0] ∧ s.phase = .wait ∧ s.seq[s.k]? = some startRow ∧ ¬meets startRow 0x38
         ∧ ∃ t, step s = .next t ∧ t.held = false)
    ∧ ∃ t, step (inBurst 4 none [.reset] []) = .next t ∧ t.held ≠ true :=
  ⟨⟨rfl, rfl, rfl, by simp [meets], _, rfl, by decide⟩, ⟨rfl, rfl, rfl, trivial, _, rfl, by decide⟩,
    ⟨rfl, rfl, rfl, by simp [meets], _, rfl, rfl⟩, _, rfl, by decide⟩

/-- COMPT sets TFV; the host's write, LDRAWT and a reset clear it. -/
theorem witness_TfvChangesOnlyAsListed :
    (∃ t, step { pending .compt calK with moves := [.eng] } = .next t ∧ calK.tfv = false ∧ t.tfv = true)
    ∧ (∃ t, step (hosted [.host] [.w 0x020 4 5] fineK) = .next t ∧ fineK.tfv = true ∧ t.tfv = false)
    ∧ (∃ t, step { pending .ldrawt (received [1, 2, 3] fineK) with moves := [.eng] } = .next t ∧ t.tfv = false)
    ∧ ∃ t, step { fineK with moves := [.reset] } = .next t ∧ t.tfv = false :=
  ⟨⟨_, rfl, rfl, rfl⟩, ⟨_, rfl, rfl, rfl⟩, ⟨_, rfl, rfl⟩, _, rfl, rfl⟩

/-- COMPT changes TEMP and TFINE (CT1), COMPH changes HUM (CH1), LDCALA the calibration set (V30). -/
theorem witness_ResultsChangeOnlyAtCompletion :
    look (fun t => (t.temp, t.tfine)) (step { pending .compt { calK with rawt := 519888 } with moves := [.eng] }) = some (2508, 128422)
    ∧ look (fun t => t.hum) (step { pending .comph { fineK with rawh := 30000 } with moves := [.eng] }) = some 56317
    ∧ look (fun t => t.cal.t1) (step { pending .ldcala (received block1 blank) with moves := [.eng] }) = some 27504 := by
  decide +kernel

/-- A state with the invariant of the two units, and a step after which the block is still busy. -/
theorem witness_OperandsStayConstantWhileBusy :
    let s := inBurst 1 none [.host] [.w 0x008 4 0x11]
    s.busy = true ∧ ControlInv s ∧ ∃ t, step s = .next t ∧ ¬resets s t ∧ t.busy = true :=
  ⟨by decide, inBurst_control (by decide) _ _, _, rfl, by unfold resets; decide, by decide⟩

theorem witness_OnlyACommandWriteMakesTheBlockBusy :
    let s := State.withFetchWord blank 32 0x14
    (∃ t, step s = .next t ∧ t.busy = true) ∧ s.busy = false :=
  ⟨⟨_, rfl, by decide⟩, by decide⟩

/-- An idle block, and the HOST in a program, at a place of it, with these callers and STATUS last read as x. -/
def inProgram (prog : List HostOp) (pc : Nat) (returns : List Nat) (x : Word) : State :=
  { blank with host := { HostAgent.empty with prog := prog, pc := pc, returns := returns, vars := [(nameId, 0x58), (nameS, x)] } }

/-- Each place is the clause's own (after `front`, the operations before it). After an EXEC, with CODE 0 and with CODE 2 (run (c) of R222's vectors: STATUS = 0x202), with a caller and without; the identity byte
0x58 where 0x60 is expected, with a caller and without; and a caller that recovers, before and after the procedure. -/
theorem witness_FailedProcedureReturnsToItsCaller :
    (∀ x ∈ [0x000, 0x202], ∀ returns ∈ [[], [9]],
      let s := inProgram ([.sleep 1] ++ hostExecOr .selreg .idRegErr ++ [.ret]) 4 returns x
      s.busy = false ∧ s.moves = [] ∧ readVar s.host.vars nameS = some x)
    ∧ (0x000 : Word).toNat % 16 = 0 ∧ (0x202 : Word).toNat % 16 ≠ 0
    ∧ (∀ returns ∈ [[], [38]],
      let s := inProgram ([.call 37] ++ initializeProc {} none ++ []) 16 returns 0
      s.busy = false ∧ s.moves = [] ∧ readVar s.host.vars nameS = some 0 ∧ readVar s.host.vars nameId = some 0x58)
    ∧ (0x58 : Word).toNat % 256 ≠ (SensorParams.chipId {}).toNat
    ∧ (∀ pc ∈ [0, 1 + (loadCalibrationProc {}).length],
      let s := inProgram ([] ++ callUnder (.recoverable 1) .ok (loadCalibrationProc {}) ++ []) pc [] 0x202
      s.busy = false ∧ s.moves = [] ∧ s.host.status ≠ some .ok) :=
  ⟨fun _ _ _ _ => ⟨rfl, rfl, rfl⟩, by decide, by decide, fun _ _ => ⟨rfl, rfl, rfl, rfl⟩, by decide,
    fun _ _ => ⟨rfl, rfl, nofun⟩⟩

/-- R233: "the core simply always returns": every procedure ends with a return and holds no operation that ends the program. -/
theorem test_procedures_return :
    ∀ proc ∈ [initializeProc {} none, initializeProc {} (some 2), loadCalibrationProc {}, readRawTemperatureProc {} 1 none,
      readRawHumidityProc {} 1 (some ⟨0xF3, 3, 0⟩)],
      proc.getLast? = some .ret ∧ HostOp.done ∉ proc := by decide +kernel

/-- R233: the cycle calls readRawTemperature, and where that returns with a failure it goes on with BUSSTOP and the whole procedure again. -/
theorem test_cycle_recovers :
    let prog := measurementCycleProc {} 1 1 none (.recoverable 1)
    let n := (readRawTemperatureProc {} 1 none).length
    prog[0]? = some (.call n) ∧ prog[n]? = some .ret ∧ prog[n + 2]? = some (.w 0x000 4 0x05)
    ∧ prog[n + 5]? = some (.call n) := by decide +kernel

end Sys2Proof.Tests
end

section
/-! PROOFS. The engine's operands, results and flags: what one step can do to them, and the statements about them. -/

namespace Sys2Proof.Proofs

open Sys2Proof.Machine Sys2Proof.Safety Sys2Proof.Claims

/-! ### The engine's fields -/

/-- What R150 calls the engine's operands, results and flags, as they stand in s. -/
def engineOf (s : State) : EngineFields :=
  ⟨s.rawt, s.rawh, s.temp, s.tfine, s.hum, s.cal, s.cala, s.calb, s.tfv, s.tclo, s.tchi, s.hclo, s.hchi⟩

/-- Everything a step can do to the engine's fields: they become those of one of these states. -/
inductive EngineEffect (s t : State) : Prop
  | kept : engineOf t = engineOf s → EngineEffect s t
  | hostRawt (v : Word) :
      s.busy = false → hostWrites s 0x020 → engineOf t = engineOf (storeReg .rawt v s) → EngineEffect s t
  | rawh (x : BitVec 16) : engineOf t = engineOf { s with rawh := x } → EngineEffect s t
  | ldcala : engineEnds 0x10 s t → engineOf t = engineOf (loadBlock1 s) → EngineEffect s t
  | ldcalb : engineEnds 0x11 s t → s.cala = true → engineOf t = engineOf (loadBlock2 s) → EngineEffect s t
  | ldrawt : engineEnds 0x12 s t → engineOf t = engineOf (loadRawt s) → EngineEffect s t
  | compt : engineEnds 0x14 s t → calibrated s = true → engineOf t = engineOf (compensateTemperature s) → EngineEffect s t
  | comph : engineEnds 0x15 s t → engineOf t = engineOf (compensateHumidity s) → EngineEffect s t
  | reset : resets s t → engineOf t = engineOf State.reset → EngineEffect s t

/-- A completion writes what its command's own row says, and only with code 0. -/
theorem EngineEffect.of_complete {s t : State} {i : Instr} (hp : s.engPending = true) (hl : s.lastCmd = i.opcode)
    (h : CompleteEffect s i t) : EngineEffect s t := by
  cases h with
  | refused c _ => exact .kept rfl
  | ldcala _ => exact .ldcala ⟨hp, hl, rfl, rfl⟩ rfl
  | ldcalb _ hc => exact .ldcalb ⟨hp, hl, rfl, rfl⟩ hc rfl
  | ldrawt _ => exact .ldrawt ⟨hp, hl, rfl, rfl⟩ rfl
  | ldrawh _ => exact .rawh _ rfl
  | compt hc => exact .compt ⟨hp, hl, rfl, rfl⟩ hc rfl
  | comph _ _ => exact .comph ⟨hp, hl, rfl, rfl⟩ rfl

/-- Of the registers a host's write stores in while BUSY = 0, only RAWT and RAWH are the engine's (R68). -/
theorem EngineEffect.of_store {s : State} (h : HostAgent) {r : HostReg} {v : Word} (hw : HostWrites s r v)
    (hb : s.busy = false) : EngineEffect s (storeReg r v { s with host := h }) := by
  cases r with
  | rawt =>
    obtain ⟨off, -, -, hr, hop⟩ := hw
    obtain rfl := regAt_rawt hr
    exact .hostRawt v hb ⟨4, v, hop⟩ rfl
  | rawh => exact .rawh _ rfl
  | _ => exact .kept rfl

/-- No acceptance touches the engine's fields (R92). -/
theorem engineOf_of_accept {s t : State} {i : Instr} (h : AcceptEffect s i t) : engineOf t = engineOf s := by
  cases h <;> rfl

/-- What one move can do to the engine's fields. -/
theorem EngineEffect.of_move {m : Move} {s t : State} (h : MoveEffect m s t) : EngineEffect s t := by
  cases h with
  | nothing | host | ignored | illegal | issue | fail => exact .kept rfl
  | store _ h r v hw hb => exact .of_store h hw hb
  | accept _ _ _ _ _ _ _ _ ha => exact .kept ((engineOf_of_accept ha).trans rfl)
  | pass _ i st a =>
    obtain ⟨_, _, _, _, hq⟩ := passed_eq i st a.rxb { s with beAnswer := none }
    exact .kept (by rw [hq]; rfl)
  | complete _ _ _ _ hl hp hc => exact .of_complete hp hl hc
  | reset => exact .reset rfl rfl

/-- The moves to come matter to none of the effects. -/
theorem EngineEffect.of_moves {s t : State} {ms : List Move} (h : EngineEffect { s with moves := ms } t) :
    EngineEffect s t := by
  cases h with
  | kept e => exact .kept e
  | hostRawt v hb hw e => exact .hostRawt v hb hw e
  | rawh x e => exact .rawh x e
  | ldcala he e => exact .ldcala he e
  | ldcalb he hc e => exact .ldcalb he hc e
  | ldrawt he e => exact .ldrawt he e
  | compt he hc e => exact .compt he hc e
  | comph he e => exact .comph he e
  | reset hr e => exact .reset hr e

/-- What one step can do to the engine's fields. -/
theorem EngineEffect.of_step {s t : State} (h : step s = .next t) : EngineEffect s t := by
  obtain ⟨m, ms, -, he⟩ := step_effect h
  exact .of_moves (.of_move he)

/-! ### The ranges and the promises speak of the engine's fields alone -/

theorem rangeInv_of_engineOf {s t : State} (e : engineOf t = engineOf s) (h : RangeInv s) : RangeInv t := by
  simp only [engineOf, EngineFields.mk.injEq] at e
  obtain ⟨-, -, htemp, -, hhum, -, -, -, -, htclo, htchi, hhclo, hhchi⟩ := e
  exact ⟨htemp ▸ h.temp, hhum ▸ h.hum, htclo ▸ htchi ▸ h.tcl, hhclo ▸ hhchi ▸ h.hcl⟩

theorem freshInv_of_engineOf {s t : State} (e : engineOf t = engineOf s) (h : FreshInv s) : FreshInv t := by
  simp only [engineOf, EngineFields.mk.injEq] at e
  obtain ⟨hrawt, -, htemp, htfine, -, hcal, hcala, hcalb, htfv, htclo, htchi, -, -⟩ := e
  obtain ⟨order, fresh⟩ := h
  constructor
  · rwa [hcala, hcalb]
  · rwa [hrawt, htemp, htfine, hcal, hcala, hcalb, htfv, htclo, htchi]

/-- With TFV = 0 nothing is promised of TFINE (R36). -/
theorem freshInv_of_stale {s : State} (hf : s.tfv = false) (order : s.calb = true → s.cala = true) : FreshInv s :=
  ⟨order, fun h => by simp [hf] at h⟩

theorem rangeInv_reset : RangeInv State.reset := ⟨by decide, by decide, by decide, by decide⟩

theorem freshInv_reset : FreshInv State.reset := freshInv_of_stale rfl id

/-- Settles O51: after reset every result is 0, no clamp flag stands and TFV is 0. -/
theorem resetHasRangeAndFreshInv : Obligations.ResetHasRangeAndFreshInv := ⟨rangeInv_reset, freshInv_reset⟩

/-- Settles O49: only COMPT writes TEMP and its flags and only COMPH writes HUM and its, each with a clamp's value. -/
theorem stepKeepsRangeInv : Obligations.StepKeepsRangeInv := by
  intro s t hs h
  obtain ⟨temp, hum, tcl, hcl⟩ := id hs
  cases EngineEffect.of_step h with
  | kept e => exact rangeInv_of_engineOf e hs
  | hostRawt _ _ _ e | rawh _ e | ldcala _ e | ldcalb _ _ e | ldrawt _ e => exact rangeInv_of_engineOf e ⟨temp, hum, tcl, hcl⟩
  | compt _ _ e => exact rangeInv_of_engineOf e ⟨compensatedTemp_range _, hum, clampedLow_clampedHigh _ (by decide), hcl⟩
  | comph _ e => exact rangeInv_of_engineOf e ⟨temp, compensatedHum_range _, tcl, clampedLow_clampedHigh _ (by decide)⟩
  | reset _ e => exact rangeInv_of_engineOf e rangeInv_reset

/-- Settles O50: what TFINE is computed from changes only in a step that clears TFV, and COMPT sets TFV with a TFINE of
the present operands and a complete set. -/
theorem stepKeepsFreshInv : Obligations.StepKeepsFreshInv := by
  intro s t hs h
  obtain ⟨order, fresh⟩ := id hs
  cases EngineEffect.of_step h with
  | kept e => exact freshInv_of_engineOf e hs
  | hostRawt _ _ _ e | ldrawt _ e => exact freshInv_of_engineOf e (freshInv_of_stale rfl order)
  | rawh _ e | comph _ e => exact freshInv_of_engineOf e ⟨order, fresh⟩
  | ldcala _ e => exact freshInv_of_engineOf e (freshInv_of_stale rfl nofun)
  | ldcalb _ hc e => exact freshInv_of_engineOf e (freshInv_of_stale rfl fun _ => hc)
  | compt _ hc e =>
    obtain ⟨ha, hb⟩ : s.cala = true ∧ s.calb = true := by simpa [calibrated] using hc
    exact freshInv_of_engineOf e ⟨order, fun _ => ⟨ha, hb, rfl, rfl, rfl, rfl⟩⟩
  | reset _ e => exact freshInv_of_engineOf e freshInv_reset

/-- Settles O55: of the effects a step can have on the engine's fields, only COMPT's sets TFV, and only those listed clear it. -/
theorem tfvChangesOnlyAsListed : Obligations.TfvChangesOnlyAsListed := by
  intro s t h
  have cleared {p : Prop} (hf : t.tfv = false) (hp : p) :
      (s.tfv = false → t.tfv = true → engineEnds 0x14 s t) ∧ (s.tfv = true → t.tfv = false → p) :=
    ⟨fun _ ht => absurd (hf.symm.trans ht) Bool.false_ne_true, fun _ _ => hp⟩
  cases EngineEffect.of_step h with
  | kept e | rawh _ e | comph _ e =>
    have htfv : t.tfv = s.tfv := congrArg EngineFields.tfv e
    rw [htfv]
    exact ⟨fun hf ht => absurd (hf.symm.trans ht) Bool.false_ne_true,
      fun ht hf => absurd (hf.symm.trans ht) Bool.false_ne_true⟩
  | hostRawt _ hb hw e => exact cleared (congrArg EngineFields.tfv e) (.inl ⟨hb, hw⟩)
  | ldrawt he e => exact cleared (congrArg EngineFields.tfv e) (.inr (.inl he))
  | ldcala he e => exact cleared (congrArg EngineFields.tfv e) (.inr (.inr (.inl he)))
  | ldcalb he _ e => exact cleared (congrArg EngineFields.tfv e) (.inr (.inr (.inr (.inl he))))
  | reset hr e => exact cleared (congrArg EngineFields.tfv e) (.inr (.inr (.inr (.inr hr))))
  | compt he _ e =>
    have htfv : t.tfv = true := congrArg EngineFields.tfv e
    exact ⟨fun _ _ => he, fun _ hf => absurd (hf.symm.trans htfv) Bool.false_ne_true⟩

/-- Settles O56: each effect keeps the results that its command does not write. -/
theorem resultsChangeOnlyAtCompletion : Obligations.ResultsChangeOnlyAtCompletion := by
  intro s t h
  cases EngineEffect.of_step h with
  | kept e | hostRawt _ _ _ e | rawh _ e | ldrawt _ e =>
    have hr : t.temp = s.temp ∧ t.tfine = s.tfine ∧ t.hum = s.hum ∧ t.cal = s.cal :=
      ⟨congrArg EngineFields.temp e, congrArg EngineFields.tfine e, congrArg EngineFields.hum e, congrArg EngineFields.cal e⟩
    simp [hr]
  | ldcala he e =>
    have hr : t.temp = s.temp ∧ t.tfine = s.tfine ∧ t.hum = s.hum :=
      ⟨congrArg EngineFields.temp e, congrArg EngineFields.tfine e, congrArg EngineFields.hum e⟩
    exact ⟨by simp [hr], by simp [hr], fun _ => .inl he⟩
  | ldcalb he _ e =>
    have hr : t.temp = s.temp ∧ t.tfine = s.tfine ∧ t.hum = s.hum :=
      ⟨congrArg EngineFields.temp e, congrArg EngineFields.tfine e, congrArg EngineFields.hum e⟩
    exact ⟨by simp [hr], by simp [hr], fun _ => .inr (.inl he)⟩
  | compt he _ e =>
    have hr : t.hum = s.hum ∧ t.cal = s.cal := ⟨congrArg EngineFields.hum e, congrArg EngineFields.cal e⟩
    exact ⟨fun _ => .inl he, by simp [hr], by simp [hr]⟩
  | comph he e =>
    have hr : t.temp = s.temp ∧ t.tfine = s.tfine ∧ t.cal = s.cal :=
      ⟨congrArg EngineFields.temp e, congrArg EngineFields.tfine e, congrArg EngineFields.cal e⟩
    exact ⟨by simp [hr], fun _ => .inl he, by simp [hr]⟩
  | reset hr _ => exact ⟨fun _ => .inr hr, fun _ => .inr hr, fun _ => .inr (.inr hr)⟩

end Sys2Proof.Proofs
end

section
/-! PROOFS. What each operation, move and step leaves alone. -/

namespace Sys2Proof.Proofs

open Sys2Proof.Machine Sys2Proof.Safety Sys2Proof.Claims

/-! ### One step, from the cases of one move -/

/-- What every move keeps, and the list of moves does not matter to, every step keeps. -/
theorem step_keeps {P : State → Prop} (hmoves : ∀ s ms, P s → P { s with moves := ms })
    (hmove : ∀ m s t, P s → MoveEffect m s t → P t) {s t : State} (hs : P s) (h : step s = .next t) : P t := by
  obtain ⟨m, ms, -, he⟩ := step_effect h
  exact hmove m _ t (hmoves s ms hs) he

/-- A planned move is the step (R255). -/
theorem step_of_moves {s : State} {m : Move} {rest : List Move} (h : s.moves = m :: rest) :
    step s = runMove m { s with moves := rest } := by
  simp only [step, runNext, h]

/-! ### What each kind of move leaves alone -/

/-- A host's store writes operand registers, and TFV with RAWT (R68, R36). -/
theorem storeReg_frame (r : HostReg) (v : Word) (s : State) :
    ∃ d ri w n b rt rh tf, storeReg r v s =
      { s with dev := d, regidx := ri, wdata := w, count := n, selhold := b, rawt := rt, rawh := rh, tfv := tf } := by
  cases r <;> exact ⟨_, _, _, _, _, _, _, _, rfl⟩

/-- An engine command's completion writes the engine's fields, CODE and ENG_PENDING (R170). -/
theorem complete_frame {s t : State} {i : Instr} (h : CompleteEffect s i t) :
    ∃ e c, t = withEngine e { s with code := c, engPending := false } := by
  refine ⟨engineOf t, t.code, ?_⟩
  cases h <;> rfl

/-- An I2C command's acceptance writes no operand register, not the ENG and nothing around the block (R92, R96). -/
theorem accept_frame {s t : State} {i : Instr} (h : AcceptEffect s i t) (hi : i.isFsm = true) :
    ∃ op o ln sq p k u c, t = { s with
      lastCmd := op, ovr := o, rxlen := ln, seq := sq, phase := p, k := k, cur := u, code := c } := by
  cases h with
  | engine _ he => simp [hi] at he
  | _ => exact ⟨_, _, _, _, _, _, _, _, rfl⟩

/-- Only a receive's acceptance writes RXLEN (R144, R146). -/
theorem accept_rxlen {s t : State} {i : Instr} (h : AcceptEffect s i t) (hi : isReceive i = false) : t.rxlen = s.rxlen := by
  cases h with
  | rdbyte | burst _ | tooLong _ => cases hi
  | wrreg | selreg | release _ | notHeld _ | engine _ _ => rfl

theorem accept_held {s t : State} {i : Instr} (h : AcceptEffect s i t) : t.held = s.held := by
  cases h <;> rfl

theorem resultsOf_of_not_receive {i : Instr} (hi : isReceive i = false) : resultsOf i = noResults := by
  cases i with
  | rdbyte | rdbytes => cases hi
  | _ => rfl

theorem resultsOf_of_receive {i : Instr} (hi : isReceive i = true) : resultsOf i = receiveResults := by
  cases i with
  | rdbyte | rdbytes => rfl
  | _ => cases hi

/-- A command's success results are at most RXLEN (R118). -/
theorem resultsOf_frame (i : Instr) (s : State) : ∃ ln, resultsOf i s = { s with rxlen := ln } := by
  cases i <;> exact ⟨_, rfl⟩

/-- Only a receive's completion writes RXLEN (R118). -/
theorem passed_rxlen {i : Instr} (hi : isReceive i = false) (s : State) :
    (advanceOrComplete (resultsOf i) s).rxlen = s.rxlen := by
  rw [resultsOf_of_not_receive hi]
  rcases advanceOrComplete_cases noResults s with ⟨-, hx⟩ | ⟨-, hx⟩ <;> simp [hx, noResults]

/-- HELD after a step's success effect (R114, R117). -/
theorem stepEffect_held (st : SeqStep) (rxb : Byte) (s : State) :
    (stepEffect st rxb s).held =
      if st.action = .start then true else if st.action = .stop then false else s.held := by
  obtain ⟨a, c⟩ := st
  cases a <;> rfl

/-- RXBUF after a step's success effect (R116). -/
theorem stepEffect_rxbuf (st : SeqStep) (rxb : Byte) (s : State) :
    (stepEffect st rxb s).rxbuf =
      if st.isRecv then s.rxbuf.setIfInBounds (recvIndex s.seq s.k) rxb else s.rxbuf := by
  obtain ⟨a, c⟩ := st
  cases a <;> rfl

theorem isRecv_eq_false {st : SeqStep} (h : ∀ ack, st.action ≠ .recv ack) : st.isRecv = false := by
  obtain ⟨a, c⟩ := st
  cases a with
  | recv ack => exact absurd rfl (h ack)
  | start | send _ | stop => rfl

/-- A step's condition is met exactly where its check has no failure (R112). -/
theorem failure_eq_none {st : SeqStep} {cond : Byte} : st.check.failure cond = none ↔ meets st cond := by
  obtain ⟨a, c⟩ := st
  cases c <;> simp [Check.failure, meets]

/-- Neither an advance nor a completion writes HELD: the success effect has (R118). -/
theorem held_advanceOrComplete (i : Instr) (s : State) : (advanceOrComplete (resultsOf i) s).held = s.held := by
  obtain ⟨ln, hl⟩ := resultsOf_frame i s
  rcases advanceOrComplete_cases (resultsOf i) s with ⟨-, hx⟩ | ⟨-, hx⟩ <;> simp [hx, hl]

end Sys2Proof.Proofs
end

section
/-! PROOFS. The SEQ tables, and what keeps a transaction in progress and the invariant of the two units. -/

namespace Sys2Proof.Proofs

open Sys2Proof.Machine Sys2Proof.Safety Sys2Proof.Claims

/-! ### The shape of the SEQ tables -/

/-- R146's SEQ with its STOP taken off. -/
theorem seqRdbytes_eq_append_stop (d : BitVec 7) (n : Nat) :
    seqRdbytes d n = (startStep :: addrRStep d :: List.replicate (n - 1) recvAckStep ++ [recvNackStep]) ++ [stopStep] := by
  simp [seqRdbytes]

/-- A STOP is the last step of every SEQ (R140, R142, R144, R146, R148). -/
theorem transactionSeq_stop_last {i : Instr} {s : State} {k : Nat} {st : SeqStep}
    (hk : (transactionSeq i s)[k]? = some st) (ha : st.action = .stop) : k + 1 = (transactionSeq i s).length := by
  have last {l : List SeqStep} (hs : transactionSeq i s = l ++ [stopStep]) (hl : ∀ x ∈ l, x.action ≠ .stop) :
      k + 1 = (transactionSeq i s).length := by
    rw [hs] at hk ⊢
    rw [stop_only_last hl hk ha, List.length_append, List.length_singleton]
  cases i with
  | wrreg =>
    exact last (l := [startStep, addrWStep s.dev, dataStep s.regidx, dataStep s.wdata]) rfl
      (by simp [startStep, addrWStep, dataStep])
  | selreg =>
    cases hh : s.selhold with
    | false =>
      exact last (l := [startStep, addrWStep s.dev, dataStep s.regidx]) (by simp [transactionSeq, seqSelreg, hh])
        (by simp [startStep, addrWStep, dataStep])
    | true =>
      have hm := List.mem_of_getElem? hk
      simp only [transactionSeq, seqSelreg, hh, if_true, List.append_nil, List.mem_cons, List.not_mem_nil, or_false] at hm
      obtain rfl | rfl | rfl := hm <;> cases ha
  | rdbyte =>
    exact last (l := [startStep, addrRStep s.dev, recvNackStep]) rfl (by simp [startStep, addrRStep, recvNackStep])
  | rdbytes =>
    refine last (seqRdbytes_eq_append_stop _ _) ?_
    simp [startStep, addrRStep, recvAckStep, recvNackStep, List.mem_replicate, or_imp, forall_and]
  | busstop => exact last (l := []) rfl (by simp)
  | ldcala | ldcalb | ldrawt | ldrawh | compt | comph => cases hk

/-- Every SEQ but BUSSTOP's begins with the START. -/
theorem transactionSeq_first {i : Instr} {s : State} {st : SeqStep} (hi : i ≠ .busstop)
    (hk : (transactionSeq i s)[0]? = some st) : st = startStep := by
  cases i with
  | wrreg | selreg | rdbyte | rdbytes => exact (Option.some.inj hk).symm
  | busstop => exact absurd rfl hi
  | ldcala | ldcalb | ldrawt | ldrawh | compt | comph => cases hk

/-- No SEQ is empty. -/
theorem transactionSeq_length_pos {i : Instr} (hi : i.isFsm = true) (s : State) : 0 < (transactionSeq i s).length := by
  cases i with
  | wrreg | selreg | rdbyte | rdbytes | busstop => exact Nat.succ_pos _
  | ldcala | ldcalb | ldrawt | ldrawh | compt | comph => cases hi

/-- After a step that is not the last of its SEQ, the bus is held: a START took it, and no STOP has come (R34). -/
theorem stepEffect_held_of_not_last {i : Instr} {s u : State} {st : SeqStep} {k : Nat}
    (hk : (transactionSeq i s)[k]? = some st) (hl : k + 1 ≠ (transactionSeq i s).length) (hu : 0 < k → u.held = true)
    (rxb : Byte) : (stepEffect st rxb u).held = true := by
  have hstop : st.action ≠ .stop := fun h => hl (transactionSeq_stop_last hk h)
  rw [stepEffect_held]
  match k, hu with
  | 0, _ =>
    have hi : i ≠ .busstop := fun h => hl (by subst h; rfl)
    rw [transactionSeq_first hi hk]
    rfl
  | k + 1, hu => simp [hstop, hu k.succ_pos]

/-- No SEQ receives more than RXDEPTH bytes (R146). -/
theorem recvCount_transactionSeq_le {i : Instr} {s : State} (hi : isReceive i = true)
    (hc : i = .rdbytes → s.count.toNat ≤ Config.rxDepth) : recvCount (transactionSeq i s) ≤ Config.rxDepth := by
  cases i with
  | rdbyte => rw [transactionSeq, recvCount_seqRdbyte]; decide
  | rdbytes =>
    rw [transactionSeq, recvCount_seqRdbytes _ (one_le_burstLength _)]
    exact max_le (by decide) (hc rfl)
  | wrreg | selreg | busstop | ldcala | ldcalb | ldrawt | ldrawh | compt | comph => cases hi

/-! ### What keeps a transaction in progress, and the invariant of the two units -/

/-- A transaction in progress does not read what stands here. -/
theorem inTransaction_frame {i : Instr} {s : State} (h : InTransaction i s) (o : Bool) (p : Phase) (a : Option BeAnswer)
    (l : List BusAction) (ms : List Move) (hh : HostAgent) :
    InTransaction i { s with ovr := o, phase := p, beAnswer := a, busLog := l, moves := ms, host := hh } :=
  ⟨h.unit, h.cur, h.last, h.alone, h.seq, h.inRange, h.rxlen, h.count, h.held⟩

/-- Past a step that is not the last, the transaction is in progress at the next (R112, section 2 of spec/40_bus_steps.md). -/
theorem inTransaction_advance {i : Instr} {s : State} {st : SeqStep} (h : InTransaction i s) (hst : s.seq[s.k]? = some st)
    (hl : s.k + 1 ≠ s.seq.length) (rxb : Byte) (rb : Vector Byte 32) (a : Option BeAnswer) :
    InTransaction i { s with
      held := (stepEffect st rxb { s with beAnswer := none }).held
      rxbuf := rb, phase := .issue, k := s.k + 1, beAnswer := a } := by
  have hr := h.inRange
  refine ⟨h.unit, h.cur, h.last, h.alone, h.seq, by show s.k + 1 < s.seq.length; omega, h.rxlen, h.count, fun _ => ?_⟩
  rw [h.seq] at hst hl
  exact stepEffect_held_of_not_last (u := { s with beAnswer := none }) hst hl (fun hk => h.held (.inr hk)) rxb

/-- The acceptance of an I2C command that starts a transaction puts it in progress at step 0 (R92). -/
theorem inTransaction_start {i : Instr} {s : State} (hi : i.isFsm = true) (he : s.engPending = false)
    (hr : isReceive i = true → s.rxlen = 0) (hc : i = .rdbytes → s.count.toNat ≤ Config.rxDepth)
    (hb : i = .busstop → s.held = true) : InTransaction i (startTransaction i.opcode (transactionSeq i s) s) :=
  ⟨hi, rfl, rfl, he, rfl, transactionSeq_length_pos hi s, hr, hc,
    fun h => h.elim hb fun hk => absurd hk (Nat.lt_irrefl 0)⟩

/-- The invariant of the two units does not read what stands here. -/
theorem controlInv_frame {s : State} (h : ControlInv s) (o : Bool) (ms : List Move) (hh : HostAgent) :
    ControlInv { s with ovr := o, moves := ms, host := hh } :=
  ⟨h.idleK, fun hp => (h.busyFsm hp).imp fun _ ht => inTransaction_frame ht _ _ _ _ _ _, h.busyEng, h.noAnswer, h.rxlen⟩

/-- The invariant of the two units in an idle block. -/
theorem controlInv_of_idle {s : State} (hp : s.phase = .idle) (hk : s.k = 0) (he : s.engPending = false)
    (ha : s.beAnswer = none) (hr : s.rxlen.toNat ≤ Config.rxDepth) : ControlInv s :=
  ⟨fun _ => hk, fun h => absurd hp h, fun h => by simp [he] at h, ha, hr⟩

/-- The invariant of the two units while the FSM is busy. -/
theorem controlInv_of_inTransaction {i : Instr} {s : State} (h : InTransaction i s) (hp : s.phase ≠ .idle)
    (ha : s.beAnswer = none) (hr : s.rxlen.toNat ≤ Config.rxDepth) : ControlInv s :=
  ⟨fun hq => absurd hq hp, fun _ => ⟨i, h⟩, fun he => by simp [h.alone] at he, ha, hr⟩

/-- A busy FSM runs the transaction of the command that CUR names. -/
theorem inTransaction_of_cur {i : Instr} {s : State} (h : ControlInv s) (hp : s.phase ≠ .idle) (hc : s.cur = i.opcode) :
    InTransaction i s := by
  obtain ⟨j, hj⟩ := h.busyFsm hp
  obtain rfl : i = j := opcode_injective (hc.symm.trans hj.cur)
  exact hj

/-- The acceptance of an I2C command that starts a transaction gives the invariant of the two units (R92). -/
theorem controlInv_start {i : Instr} {s : State} (hi : i.isFsm = true) (he : s.engPending = false)
    (hr : isReceive i = true → s.rxlen = 0) (hc : i = .rdbytes → s.count.toNat ≤ Config.rxDepth)
    (hb : i = .busstop → s.held = true) (ha : s.beAnswer = none) (hl : s.rxlen.toNat ≤ Config.rxDepth) :
    ControlInv (startTransaction i.opcode (transactionSeq i s) s) :=
  controlInv_of_inTransaction (inTransaction_start hi he hr hc hb) nofun ha hl

/-- An acceptance gives the invariant of the two units (R92). -/
theorem controlInv_accept {i : Instr} {s t : State} (h : ControlInv s) (hb : s.busy = false)
    (ha : AcceptEffect s i t) : ControlInv t := by
  obtain ⟨hp, he⟩ := busy_eq_false.1 hb
  have hk := h.idleK hp
  have hn := h.noAnswer
  cases ha with
  | wrreg => exact controlInv_start (i := .wrreg) rfl he nofun nofun nofun hn h.rxlen
  | selreg => exact controlInv_start (i := .selreg) rfl he nofun nofun nofun hn h.rxlen
  | rdbyte =>
    exact controlInv_start (i := .rdbyte) (s := { s with rxlen := 0 }) rfl he (fun _ => rfl) nofun nofun hn
      (Nat.zero_le _)
  | burst hc =>
    exact controlInv_start (i := .rdbytes) (s := { s with rxlen := 0 }) rfl he (fun _ => rfl) (fun _ => hc) nofun hn
      (Nat.zero_le _)
  | release hh => exact controlInv_start (i := .busstop) rfl he nofun nofun (fun _ => hh) hn h.rxlen
  | tooLong _ => exact controlInv_of_idle rfl rfl he hn (Nat.zero_le _)
  | notHeld _ => exact controlInv_of_idle rfl rfl he hn h.rxlen
  | engine _ hi => exact ⟨fun _ => hk, fun hq => absurd hp hq, fun _ => ⟨hp, i, hi, rfl⟩, hn, h.rxlen⟩

/-- The length a receive leaves in RXLEN is legal (R40, R118). -/
theorem rxlen_resultsOf_le {i : Instr} {s : State} (h : InTransaction i s) (hd : Bool) (rb : Vector Byte 32)
    (hr : s.rxlen.toNat ≤ Config.rxDepth) :
    (resultsOf i { s with held := hd, rxbuf := rb, beAnswer := none }).rxlen.toNat ≤ Config.rxDepth := by
  cases hi : isReceive i with
  | false =>
    rwa [resultsOf_of_not_receive hi]
  | true =>
    have hle := recvCount_transactionSeq_le hi h.count
    rw [← h.seq] at hle
    rw [resultsOf_of_receive hi]
    show (BitVec.ofNat 8 (recvCount s.seq)).toNat ≤ Config.rxDepth
    rw [BitVec.toNat_ofNat]
    exact (Nat.mod_le _ _).trans hle
end Sys2Proof.Proofs
end

section
/-! PROOFS. An I2C command's next step, and the statements about the two units. -/

namespace Sys2Proof.Proofs

open Sys2Proof.Machine Sys2Proof.Safety Sys2Proof.Claims

/-! ### Everything an I2C command's next step can do -/

/-- What an I2C command's next step can turn a state into. -/
inductive FsmEffect (i : Instr) (s : State) : State → Prop
  | accept {t : State} : AcceptEffect s i t → FsmEffect i s t
  | turnedAway : FsmEffect i s (ignoredWrite s)
  | nothing : FsmEffect i s s
  | issue (st : SeqStep) : FsmEffect i s { s with busLog := st.action :: s.busLog, phase := .wait }
  | fail (f : StatusCode) : FsmEffect i s (finishFsm f { s with beAnswer := none })
  | pass (st : SeqStep) (rxb : Byte) : s.seq[s.k]? = some st →
      FsmEffect i s (advanceOrComplete (resultsOf i) (stepEffect st rxb { s with beAnswer := none }))

theorem fsmEffect_of_exec {i : Instr} {s t : State} (hi : i.isFsm = true) (h : exec i s = .next t) : FsmEffect i s t := by
  rw [exec_fsm hi] at h
  rcases commandStep_cases (fsmRuns i.opcode s) (acceptOf i) (fsmStep (resultsOf i)) s with
    ⟨-, hx⟩ | ⟨-, -, hx⟩ | ⟨-, -, hx⟩
  · obtain rfl := Host.Outcome.next.inj (hx.symm.trans h)
    exact .accept (acceptOf_effect i s)
  · rcases fsmStep_next (hx.symm.trans h) with ⟨-, rfl⟩ | ⟨-, hs⟩ | ⟨-, hs⟩
    · exact .nothing
    · obtain ⟨st, -, rfl⟩ := fsmIssue_next hs
      exact .issue st
    · rcases fsmAnswer_next hs with ⟨-, rfl⟩ | ⟨a, st, -, hst, ⟨f, -, rfl⟩ | ⟨-, rfl⟩⟩
      · exact .nothing
      · exact .fail f
      · exact .pass st a.rxb hst
  · obtain rfl := Host.Outcome.next.inj (hx.symm.trans h)
    exact .turnedAway

/-- Settles O34, over everything an I2C command's next step can do. -/
theorem i2cCommandsFrame : Obligations.I2cCommandsFrame := by
  intro i s t hi h
  cases fsmEffect_of_exec hi h with
  | accept ha =>
    have hl := accept_rxlen ha
    obtain ⟨_, _, _, _, _, _, _, _, rfl⟩ := accept_frame ha hi
    exact ⟨rfl, rfl, rfl, rfl, rfl, rfl, rfl, rfl, rfl, hl, fun _ => rfl⟩
  | turnedAway | nothing | issue | fail =>
    exact ⟨rfl, rfl, rfl, rfl, rfl, rfl, rfl, rfl, rfl, fun _ => rfl, fun _ => rfl⟩
  | pass st rxb hst =>
    obtain ⟨hd, rb, he⟩ := stepEffect_eq st rxb { s with beAnswer := none }
    have hl (hr : isReceive i = false) := passed_rxlen hr (stepEffect st rxb { s with beAnswer := none })
    have hb := stepEffect_rxbuf st rxb { s with beAnswer := none }
    obtain ⟨_, _, _, _, hp⟩ := passed_eq i st rxb { s with beAnswer := none }
    rw [hp] at hl ⊢
    refine ⟨rfl, rfl, rfl, rfl, rfl, rfl, rfl, rfl, rfl, fun hr => ?_, fun hr => ?_⟩
    · rw [hl hr, he]
    · exact hb.trans (if_neg (by simp [isRecv_eq_false (hr st hst)]))

/-! ### The steps of the units -/

theorem fsmInstr_of_cur {i : Instr} {s : State} (hi : i.isFsm = true) (hc : s.cur = i.opcode) : fsmInstr s = some i := by
  simp [fsmInstr, hc, hi]

theorem engInstr_of_lastCmd {i : Instr} {s : State} (hi : i.isFsm = false) (hl : s.lastCmd = i.opcode) :
    engInstr s = some i := by
  simp [engInstr, hl, hi]

/-- A move of the FSM, the BE or the ENG that is enabled is a step of its unit's command (R111, R112, R170). -/
theorem runMove_fsm {i : Instr} {s : State} (hp : s.phase = .issue) (hi : i.isFsm = true) (hc : s.cur = i.opcode) :
    runMove .fsm s = exec i s := by
  simp only [runMove, hp, if_true, fsmInstr_of_cur hi hc, stepCommand]

theorem runMove_be {i : Instr} {s : State} (hp : s.phase = .wait) (hi : i.isFsm = true) (hc : s.cur = i.opcode)
    (c r : Byte) : runMove (.be c r) s = exec i { s with beAnswer := some ⟨c, r⟩ } := by
  simp only [runMove, hp, if_true, fsmInstr_of_cur hi hc, stepCommand]

theorem runMove_eng {i : Instr} {s : State} (he : s.engPending = true) (hi : i.isFsm = false) (hl : s.lastCmd = i.opcode) :
    runMove .eng s = exec i s := by
  simp only [runMove, he, if_true, engInstr_of_lastCmd hi hl, stepCommand]

/-- Settles O5: the planned move is the step, and the unit's command is the one its OPCODE decodes to. -/
theorem stepRunsTheCommandInProgress : Obligations.StepRunsTheCommandInProgress := by
  intro s i rest
  refine ⟨fun hm hp hi hc => ?_, fun c r hm hp hi hc => ?_, fun hm he hi hl => ?_⟩
  · exact (step_of_moves hm).trans (runMove_fsm hp hi hc)
  · exact (step_of_moves hm).trans (runMove_be (s := { s with moves := rest }) hp hi hc c r)
  · exact (step_of_moves hm).trans (runMove_eng he hi hl)

/-! ### The invariant of the two units -/

/-- Settles O48: after reset both units are idle. -/
theorem resetHasControlInv : Obligations.ResetHasControlInv :=
  controlInv_of_idle rfl rfl rfl rfl (Nat.zero_le _)

/-- The BE's answer to a step it meets keeps the invariant: the transaction goes on, or it is complete (R112, R118). -/
theorem controlInv_pass {i : Instr} {s : State} {st : SeqStep} (h : ControlInv s) (hi : InTransaction i s)
    (hst : s.seq[s.k]? = some st) (rxb : Byte) :
    ControlInv (advanceOrComplete (resultsOf i) (stepEffect st rxb { s with beAnswer := none })) := by
  obtain ⟨hd, rb, he⟩ := stepEffect_eq st rxb { s with beAnswer := none }
  have hheld : (stepEffect st rxb { s with beAnswer := none }).held = hd := by rw [he]
  rw [he]
  rcases advanceOrComplete_cases (resultsOf i) { s with held := hd, rxbuf := rb, beAnswer := none } with
    ⟨-, hx⟩ | ⟨hl, hx⟩
  · rw [hx]
    have hle := rxlen_resultsOf_le hi hd rb h.rxlen
    obtain ⟨ln, hres⟩ := resultsOf_frame i { s with held := hd, rxbuf := rb, beAnswer := none }
    rw [hres] at hle ⊢
    exact controlInv_of_idle rfl rfl hi.alone rfl hle
  · rw [hx, ← hheld]
    exact controlInv_of_inTransaction (inTransaction_advance hi hst hl rxb rb none) nofun rfl h.rxlen

/-- Every move keeps the invariant of the two units. -/
theorem controlInv_move {m : Move} {s t : State} (h : ControlInv s) (hm : MoveEffect m s t) : ControlInv t := by
  cases hm with
  | nothing => exact h
  | host | ignored => exact controlInv_frame h _ _ _
  | store _ hh r v _ hb =>
    obtain ⟨hp, he⟩ := busy_eq_false.1 hb
    obtain ⟨_, _, _, _, _, _, _, _, hx⟩ := storeReg_frame r v { s with host := hh }
    rw [hx]
    exact controlInv_of_idle hp (h.idleK hp) he h.noAnswer h.rxlen
  | accept _ hh _ _ _ _ _ hb ha => exact controlInv_accept (controlInv_frame h _ _ hh) hb ha
  | illegal _ hh v op _ hb =>
    obtain ⟨hp, he⟩ := busy_eq_false.1 hb
    exact controlInv_of_idle hp (h.idleK hp) he h.noAnswer h.rxlen
  | issue _ i st _ hc hp _ =>
    have hi := inTransaction_of_cur h (by simp [hp]) hc
    exact controlInv_of_inTransaction (inTransaction_frame hi _ _ _ _ _ _) nofun h.noAnswer h.rxlen
  | fail _ i st a f _ hc hp =>
    have hi := inTransaction_of_cur h (by simp [hp]) hc
    exact controlInv_of_idle rfl rfl hi.alone rfl h.rxlen
  | pass _ i st a _ hc hp hst => exact controlInv_pass h (inTransaction_of_cur h (by simp [hp]) hc) hst a.rxb
  | complete _ i _ _ _ he hx =>
    obtain ⟨hp, -⟩ := h.busyEng he
    obtain ⟨_, _, rfl⟩ := complete_frame hx
    exact controlInv_of_idle hp (h.idleK hp) rfl h.noAnswer h.rxlen
  | reset => exact controlInv_of_idle rfl rfl rfl rfl (Nat.zero_le _)

/-- Settles O47: each move of each agent keeps the invariant. -/
theorem stepKeepsControlInv : Obligations.StepKeepsControlInv :=
  fun _ _ => step_keeps (fun _ ms hs => controlInv_frame hs _ ms _) fun _ _ _ hs => controlInv_move hs

/-! ### HELD -/

/-- What one move can do to HELD (R34). -/
theorem held_of_move {m : Move} {s t : State} (h : MoveEffect m s t) :
    t.held = s.held ∨
    (∃ c r st, m = .be c r ∧ s.phase = .wait ∧ s.seq[s.k]? = some st ∧ meets st c
      ∧ ((st.action = .start ∧ t.held = true) ∨ (st.action = .stop ∧ t.held = false))) ∨
    (resets s t ∧ t.held = false ∧ m = .reset) := by
  cases h with
  | nothing | host | ignored | illegal | issue | fail => exact .inl rfl
  | store _ hh r v =>
    obtain ⟨_, _, _, _, _, _, _, _, hx⟩ := storeReg_frame r v { s with host := hh }
    exact .inl (by rw [hx])
  | accept _ _ _ _ _ _ _ _ ha => exact .inl ((accept_held ha).trans rfl)
  | complete _ _ _ _ _ _ hx =>
    obtain ⟨_, _, rfl⟩ := complete_frame hx
    exact .inl rfl
  | reset => exact .inr (.inr ⟨rfl, rfl, rfl⟩)
  | pass _ i st a _ _ hp hst hf =>
    have hh := held_advanceOrComplete i (stepEffect st a.rxb { s with beAnswer := none })
    rw [stepEffect_held] at hh
    have hm := failure_eq_none.1 hf
    cases ha : st.action with
    | send _ | recv _ => exact .inl (by simp [hh, ha])
    | start => exact .inr (.inl ⟨_, _, st, rfl, hp, hst, hm, .inl ⟨ha, by simp [hh, ha]⟩⟩)
    | stop => exact .inr (.inl ⟨_, _, st, rfl, hp, hst, hm, .inr ⟨ha, by simp [hh, ha]⟩⟩)

/-- Settles O54: HELD follows the success effects of START and STOP, and no other move writes it. -/
theorem heldChangesOnlyAtStartAndStop : Obligations.HeldChangesOnlyAtStartAndStop := by
  refine ⟨fun s t h hne => ?_, fun s t c r rest st hm hp hst h => ?_⟩
  · obtain ⟨m, ms, hm, he⟩ := step_effect h
    rcases held_of_move he with hk | ⟨c, r, st, rfl, hp, hst, hc, ha⟩ | ⟨hr, hf, -⟩
    · exact absurd hk hne
    · have hm : s.moves = .be c r :: ms := by simpa using hm
      exact .inl ⟨c, r, ms, st, hm, hp, hst, hc, ha⟩
    · exact .inr ⟨hr, hf⟩
  · rw [step_of_moves hm] at h
    cases runMove_effect h with
    | nothing _ _ hn => exact absurd hp hn
    | fail _ i st' a f _ _ _ hst' hf =>
      obtain rfl := Option.some.inj (hst.symm.trans hst')
      have hn : ¬meets st a.cond := fun hc => by simp [failure_eq_none.2 hc] at hf
      exact ⟨fun hc => absurd hc hn, fun hc => absurd hc hn, fun _ => rfl⟩
    | pass _ i st' a _ _ _ hst' hf =>
      obtain rfl := Option.some.inj (hst.symm.trans hst')
      have hh := held_advanceOrComplete i (stepEffect st a.rxb { s with moves := rest, beAnswer := none })
      rw [stepEffect_held] at hh
      exact ⟨fun _ ha => by simp [hh, ha], fun _ ha => by simp [hh, ha], fun hn => absurd (failure_eq_none.1 hf) hn⟩

/-! ### What a busy block keeps -/

/-- What no move but a reset changes while BUSY = 1 (R28, R30, R67). -/
theorem busy_frame {m : Move} {s t : State} (hb : s.busy = true) (h : MoveEffect m s t) (hr : ¬resets s t) :
    t.dev = s.dev ∧ t.regidx = s.regidx ∧ t.wdata = s.wdata ∧ t.count = s.count ∧ t.selhold = s.selhold
      ∧ t.lastCmd = s.lastCmd ∧ t.seq = s.seq ∧ t.cur = s.cur := by
  cases h with
  | nothing | host | ignored | issue | fail => exact ⟨rfl, rfl, rfl, rfl, rfl, rfl, rfl, rfl⟩
  | store _ _ _ _ _ hi | accept _ _ _ _ _ _ _ hi _ | illegal _ _ _ _ _ hi _ => simp [hb] at hi
  | complete _ _ _ _ _ _ hx =>
    obtain ⟨_, _, rfl⟩ := complete_frame hx
    exact ⟨rfl, rfl, rfl, rfl, rfl, rfl, rfl, rfl⟩
  | pass _ i st a =>
    obtain ⟨_, _, _, _, hq⟩ := passed_eq i st a.rxb { s with beAnswer := none }
    rw [hq]
    exact ⟨rfl, rfl, rfl, rfl, rfl, rfl, rfl, rfl⟩
  | reset => exact absurd rfl hr

/-- A move that writes CODE while BUSY = 1 ends the command: its unit finishes, and the other is idle (R32, R33). -/
theorem busy_code {m : Move} {s t : State} (hs : ControlInv s) (hb : s.busy = true) (h : MoveEffect m s t)
    (hr : ¬resets s t) (ht : t.busy = true) : t.code = s.code := by
  cases h with
  | nothing | host | ignored | issue => rfl
  | store _ _ _ _ _ hi | accept _ _ _ _ _ _ _ hi _ | illegal _ _ _ _ _ hi _ => simp [hb] at hi
  | fail _ i st a f _ hc hp =>
    have hi := inTransaction_of_cur hs (by simp [hp]) hc
    simp [State.busy, hi.alone] at ht
  | complete _ _ _ _ _ he hx =>
    obtain ⟨hp, -⟩ := hs.busyEng he
    obtain ⟨_, _, rfl⟩ := complete_frame hx
    simp [State.busy, withEngine, hp] at ht
  | pass _ i st a _ hc hp =>
    have hi := inTransaction_of_cur hs (by simp [hp]) hc
    obtain ⟨hd, rb, hq⟩ := stepEffect_eq st a.rxb { s with beAnswer := none }
    rw [hq] at ht ⊢
    rcases advanceOrComplete_cases (resultsOf i) { s with held := hd, rxbuf := rb, beAnswer := none } with
      ⟨-, hx⟩ | ⟨-, hx⟩
    · obtain ⟨ln, hl⟩ := resultsOf_frame i { s with held := hd, rxbuf := rb, beAnswer := none }
      rw [hx, hl] at ht
      simp [State.busy, hi.alone] at ht
    · rw [hx]
  | reset => exact absurd rfl hr

/-- Settles O57: every move but a reset keeps the operands, and one that writes CODE ends BUSY. -/
theorem operandsStayConstantWhileBusy : Obligations.OperandsStayConstantWhileBusy := by
  intro s t hb h hr
  obtain ⟨m, ms, -, he⟩ := step_effect h
  refine ⟨busy_frame (s := { s with moves := ms }) hb he hr, fun hs => ?_⟩
  exact busy_code (s := { s with moves := ms }) (controlInv_frame hs _ ms _) hb he hr

end Sys2Proof.Proofs
end

section
/-! PROOFS. The registers at the host port, and the state after reset. -/

namespace Sys2Proof.Proofs

open Sys2Proof.Machine Sys2Proof.Safety Sys2Proof.Claims

/-! ### Words and fields -/

/-- A field shown in 32 bits is its number (R9). -/
theorem zext_eq_ofNat {n : Nat} (x : BitVec n) : zext x = BitVec.ofNat 32 x.toNat := (BitVec.ofNat_toNat 32 x).symm

/-- A word stored in n bits reads back masked to them (R68). -/
theorem zext_setWidth {n : Nat} (hn : n ≤ 32) (v : Word) : zext (v.setWidth n) = v &&& BitVec.ofNat 32 (2 ^ n - 1) := by
  apply BitVec.eq_of_toNat_eq
  have hp : 2 ^ n ≤ 2 ^ 32 := Nat.pow_le_pow_right (by decide) hn
  have h1 : v.toNat % 2 ^ n % 2 ^ 32 = v.toNat % 2 ^ n :=
    Nat.mod_eq_of_lt ((Nat.mod_lt _ (Nat.two_pow_pos n)).trans_le hp)
  have h2 : (2 ^ n - 1) % 2 ^ 32 = 2 ^ n - 1 := Nat.mod_eq_of_lt (by have := Nat.two_pow_pos n; omega)
  simp only [zext, BitVec.toNat_setWidth, BitVec.toNat_and, BitVec.toNat_ofNat, h1, h2, Nat.and_two_pow_sub_one_eq_mod]

/-- SELHOLD is bit 0 of the word written (R25). -/
theorem zext_bit1_getLsbD (v : Word) : zext (bit1 (v.getLsbD 0)) = v &&& 1 := by
  refine Eq.trans (congrArg zext ?_) (zext_setWidth (n := 1) (by decide) v)
  ext i hi
  obtain rfl : i = 0 := by omega
  cases h : v.getLsbD 0 <;> simp_all [bit1]

/-! ### The host port -/

/-- The registers that a write stores in are those at R67's offsets. -/
theorem mem_writableOffsets {off : Nat} (h : (regAt off).writable = true) : off ∈ writableOffsets := by
  unfold regAt at h
  split at h
  case h_32 => split at h <;> cases h
  all_goals simp_all [HostReg.writable, writableOffsets]

/-- A write while BUSY = 0 to a register other than CMD stores in it (R68). -/
theorem writeReg_idle {s : State} (hb : s.busy = false) {r : HostReg} (hc : r ≠ .cmd) (v : Word) :
    writeReg r v s = .next (storeReg r v s) := by
  unfold writeReg
  rw [if_neg (by simp [hb])]
  split
  · exact absurd rfl hc
  · rfl

theorem memWrite_idle {s : State} (hb : s.busy = false) {off : Nat} {r : HostReg} (h4 : off % 4 = 0) (hl : off < 0x200)
    (hr : regAt off = r) (hc : r ≠ .cmd) (v : Word) : memWrite (off : Int) 4 v s = .next (storeReg r v s) := by
  rw [memWrite_ofNat h4 hl, hr, writeReg_idle hb hc]

/-- Settles O37: each R/W register's own store, and the planned HOST move is the write itself. -/
theorem writesWhileIdleStoreDefinedBits : Obligations.WritesWhileIdleStoreDefinedBits := by
  refine ⟨fun s v hb => ?_, fun s rest off bytes v hm hop => ?_⟩
  · have hw {r : HostReg} (off : Nat) (h4 : off % 4 = 0) (hl : off < 0x200) (hr : regAt off = r) (hc : r ≠ .cmd) :=
      memWrite_idle hb h4 hl hr hc v
    simp only [BitVec.ofNat_toNat]
    refine ⟨hw 0x008 rfl (by decide) rfl nofun, hw 0x00C rfl (by decide) rfl nofun, hw 0x010 rfl (by decide) rfl nofun,
      hw 0x014 rfl (by decide) rfl nofun, ?_, hw 0x020 rfl (by decide) rfl nofun, hw 0x024 rfl (by decide) rfl nofun,
      fun off h4 hl hn => ?_⟩
    · have hbit : v.getLsbD 0 = decide (v.toNat % 2 = 1) := by simp [BitVec.getLsbD, Nat.testBit_zero]
      rw [← hbit]
      exact hw 0x01C rfl (by decide) rfl nofun
    · have hro : (regAt off).writable = false := Bool.eq_false_iff.2 fun h => hn (mem_writableOffsets h)
      rw [memWrite_idle hb h4 hl rfl (fun hc => by simp [hc, HostReg.writable] at hro), storeReg_readOnly hro]
  · rw [step_of_moves hm, runMove, hostStep_at (by exact hop)]
    rfl

/-- What a register reads after a write that stored in it (R66, R68). -/
theorem memRead_of_memWrite {s t : State} {v w : Word} (hb : s.busy = false) {r : HostReg} (off : Nat) (h4 : off % 4 = 0)
    (hl : off < 0x200) (hr : regAt off = r) (hc : r ≠ .cmd) (hw : readReg r (storeReg r v s) = w)
    (h : memWrite (off : Int) 4 v s = .next t) : memRead (off : Int) 4 t = .ok w := by
  obtain rfl := Host.Outcome.next.inj ((memWrite_idle hb h4 hl hr hc v).symm.trans h)
  rw [memRead_ofNat h4 hl, hr, hw]

/-- Settles O38: each register reads the word masked to the bits it stores. -/
theorem readAfterWriteIsMasked : Obligations.ReadAfterWriteIsMasked := by
  intro s t v hb
  exact ⟨memRead_of_memWrite hb 0x008 rfl (by decide) rfl nofun (zext_setWidth (by decide) v),
    memRead_of_memWrite hb 0x00C rfl (by decide) rfl nofun (zext_setWidth (by decide) v),
    memRead_of_memWrite hb 0x010 rfl (by decide) rfl nofun (zext_setWidth (by decide) v),
    memRead_of_memWrite hb 0x014 rfl (by decide) rfl nofun (zext_setWidth (by decide) v),
    memRead_of_memWrite hb 0x01C rfl (by decide) rfl nofun (zext_bit1_getLsbD v),
    memRead_of_memWrite hb 0x020 rfl (by decide) rfl nofun (zext_setWidth (by decide) v),
    memRead_of_memWrite hb 0x024 rfl (by decide) rfl nofun (zext_setWidth (by decide) v)⟩

/-- STATUS.CODE, the low four bits of the STATUS word (R31). -/
theorem statusWord_mod (s : State) : (statusWord s).toNat % 16 = s.code.bits.toNat := by
  have h : (statusWord s).extractLsb' 0 4 = s.code.bits := BitVec.extractLsb'_append_eq_right
  rw [← h, BitVec.extractLsb'_toNat, Nat.shiftRight_zero]

/-- The numbers of the codes (R251). -/
theorem toNat_bits (c : StatusCode) : c.bits.toNat = codeNumber c := by
  cases c <;> rfl

/-- Settles O39: CODE by the word's low four bits, every other bit by its place. -/
theorem statusWordLayout : Obligations.StatusWordLayout := by
  intro s
  have hbusy : s.busy = decide (s.phase ≠ .idle ∨ s.engPending = true) := by
    rw [Bool.eq_iff_iff, busy_eq_true, decide_eq_true_eq]
  refine ⟨statusWord s, memRead_ofNat (off := 0x004) rfl (by decide) s, (statusWord_mod s).trans (toNat_bits _), ?_⟩
  rw [← hbusy]
  simp only [getLsbD_statusWord]
  refine ⟨rfl, rfl, rfl, rfl, rfl, rfl, rfl, rfl, rfl, rfl, fun n hn => ?_⟩
  rcases hn with ⟨h4, h7⟩ | rfl | h19
  · rw [if_neg (by omega), if_pos (by omega)]
  · rfl
  · repeat rw [if_neg (by omega)]

section

variable {n : Nat} {s : State}

/-- What the port reads at an offset of the window: the register there, zero-extended, sign-extended or whole (R62, R66). -/
theorem memRead_zext (off : Nat) {x : BitVec n} (h : readReg (regAt off) s = zext x)
    (hoff : off % 4 = 0 ∧ off < 0x200 := by decide) : memRead (off : Int) 4 s = .ok (BitVec.ofNat 32 x.toNat) := by
  rw [memRead_ofNat hoff.1 hoff.2, h, zext_eq_ofNat]

theorem memRead_sext (off : Nat) {x : BitVec n} (h : readReg (regAt off) s = sext x)
    (hoff : off % 4 = 0 ∧ off < 0x200 := by decide) : memRead (off : Int) 4 s = .ok (BitVec.ofInt 32 x.toInt) := by
  rw [memRead_ofNat hoff.1 hoff.2, h]
  rfl

theorem memRead_word (off : Nat) {x : Word} (h : readReg (regAt off) s = x)
    (hoff : off % 4 = 0 ∧ off < 0x200 := by decide) : memRead (off : Int) 4 s = .ok x := by
  rw [memRead_ofNat hoff.1 hoff.2, h]

end

/-- The bytes of RXBUF stand one to a word from 0x100 on (R62). -/
theorem regAt_rxbuf {i : Nat} (h : i < 32) : regAt (0x100 + 4 * i) = .rxbuf ⟨i, h⟩ := by
  unfold regAt
  split
  case h_32 =>
    rw [if_pos (by omega)]
    congr 1
    apply Fin.ext
    show (0x100 + 4 * i - 0x100) / 4 % 32 = i
    omega
  all_goals omega

/-- Settles O40: each register's own row of the map. -/
theorem registerMapReads : Obligations.RegisterMapReads := by
  intro s
  refine ⟨memRead_zext 0x000 rfl, memRead_zext 0x008 rfl, memRead_zext 0x00C rfl, memRead_zext 0x010 rfl,
    memRead_zext 0x014 rfl, memRead_word 0x01C ?_, memRead_zext 0x020 rfl, memRead_zext 0x024 rfl, memRead_zext 0x018 rfl,
    memRead_word 0x028 rfl, memRead_word 0x02C rfl, memRead_word 0x030 rfl,
    memRead_zext 0x040 rfl, memRead_sext 0x044 rfl, memRead_sext 0x048 rfl,
    memRead_zext 0x04C rfl, memRead_sext 0x050 rfl, memRead_sext 0x054 rfl, memRead_sext 0x058 rfl, memRead_sext 0x05C rfl,
    memRead_sext 0x060 rfl, memRead_sext 0x064 rfl, memRead_sext 0x068 rfl, memRead_sext 0x06C rfl,
    memRead_zext 0x070 rfl, memRead_sext 0x074 rfl, memRead_zext 0x078 rfl, memRead_sext 0x07C rfl, memRead_sext 0x080 rfl,
    memRead_sext 0x084 rfl, fun i h => ?_⟩
  · show zext (bit1 s.selhold) = _
    cases s.selhold <;> rfl
  · have hr : readReg (regAt (0x100 + 4 * i)) s = zext s.rxbuf[i] := by
      rw [regAt_rxbuf h]
      rfl
    simpa using memRead_zext _ hr ⟨by omega, by omega⟩

/-- RXBUF after a reset, byte by byte (R41, R50). -/
theorem getElem_drawRxbuf (n : Nat) {i : Nat} (h : i < 32) : (drawRxbuf n)[i] = Config.rxbufDraw n i := by
  simp [drawRxbuf]

/-- Settles O45: every register at its value in the table, then RXBUF byte by byte. -/
theorem resetValuesAreTheTables : Obligations.ResetValuesAreTheTables := by
  repeat refine ⟨rfl, ?_⟩
  exact fun _ h => getElem_drawRxbuf 0 h

end Sys2Proof.Proofs
end

section
/-! PROOFS. Whole transactions, answer by answer. -/

namespace Sys2Proof.Proofs

open Sys2Proof.Machine Sys2Proof.Safety Sys2Proof.Claims

/-! ### The spec's tables are the model's -/

/-- An address byte is twice the address, plus the R/W bit (R97). -/
theorem append_eq_addrByte (d : BitVec 7) (b : BitVec 1) : d ++ b = addrByte d b.toNat := by
  apply BitVec.eq_of_toNat_eq
  rw [BitVec.toNat_append, ← Nat.shiftLeft_add_eq_or_of_lt b.isLt, Nat.shiftLeft_eq, BitVec.toNat_ofNat]
  omega

theorem slaW_eq_addrByte (d : BitVec 7) : slaW d = addrByte d 0 := append_eq_addrByte d 0

theorem slaR_eq_addrByte (d : BitVec 7) : slaR d = addrByte d 1 := append_eq_addrByte d 1

/-- The SEQ of a command is its table (R140, R142, R144, R146, R148). -/
theorem specSeq_eq_transactionSeq (i : Instr) (s : State) : specSeq i s = transactionSeq i s := by
  cases i with
  | wrreg | selreg =>
    simp only [specSeq, ← slaW_eq_addrByte]
    rfl
  | rdbyte | rdbytes =>
    simp only [specSeq, ← slaR_eq_addrByte]
    rfl
  | busstop | ldcala | ldcalb | ldrawt | ldrawh | compt | comph => rfl

/-! ### Where the RECV steps stand -/

/-- The RECV steps of a burst stand between its two first steps and its STOP (R146). -/
theorem isRecv_seqRdbytes {d : BitVec 7} {n k : Nat} {st : SeqStep} (hk : k < n + 2)
    (h : (seqRdbytes d n)[k]? = some st) : st.isRecv = decide (2 ≤ k) := by
  match k with
  | 0 =>
    obtain rfl := Option.some.inj ((seqRdbytes_zero d n).symm.trans h)
    rfl
  | 1 =>
    obtain rfl := Option.some.inj ((seqRdbytes_addr d n).symm.trans h)
    rfl
  | j + 2 =>
    have hrow : st = recvAckStep ∨ st = recvNackStep := by
      rcases Nat.lt_or_ge (j + 1) n with hj | hj
      · exact .inl (Option.some.inj (h.symm.trans (seqRdbytes_ack d hj)))
      · obtain rfl : n = j + 1 := by omega
        exact .inr (Option.some.inj (h.symm.trans (seqRdbytes_nack d j)))
    rcases hrow with rfl | rfl <;> simp

/-- RDBYTE is a burst of one byte (R146). -/
theorem transactionSeq_receive {i : Instr} (hi : isReceive i = true) (s : State) :
    ∃ n, 1 ≤ n ∧ transactionSeq i s = seqRdbytes s.dev n := by
  cases i with
  | rdbyte => exact ⟨1, le_rfl, (seqRdbytes_one s.dev).symm⟩
  | rdbytes => exact ⟨_, one_le_burstLength _, rfl⟩
  | _ => cases hi

/-- Only a receive has RECV steps. -/
theorem isRecv_of_not_receive {i : Instr} {s : State} {st : SeqStep} (hi : isReceive i = false)
    (h : st ∈ transactionSeq i s) : st.isRecv = false := by
  cases i with
  | rdbyte | rdbytes => cases hi
  | wrreg =>
    simp only [transactionSeq, seqWrreg, List.mem_cons, List.not_mem_nil, or_false] at h
    rcases h with rfl | rfl | rfl | rfl | rfl <;> rfl
  | selreg =>
    have h : st ∈ [startStep, addrWStep s.dev, dataStep s.regidx] ∨ st = stopStep := by
      simp only [transactionSeq, seqSelreg, List.mem_append] at h
      exact h.imp_right fun h => by split at h <;> simp_all
    simp only [List.mem_cons, List.not_mem_nil, or_false] at h
    rcases h with (rfl | rfl | rfl) | rfl <;> rfl
  | busstop =>
    obtain rfl := List.mem_singleton.1 h
    rfl
  | ldcala | ldcalb | ldrawt | ldrawh | compt | comph => cases h

/-- Before its last step, a SEQ receives exactly in a receive's steps from step 2 on. -/
theorem isRecv_transactionSeq {i : Instr} {s : State} {k : Nat} {st : SeqStep} (h : (transactionSeq i s)[k]? = some st)
    (hl : k + 1 < (transactionSeq i s).length) : st.isRecv = (isReceive i && decide (2 ≤ k)) := by
  cases hi : isReceive i with
  | false => exact isRecv_of_not_receive hi (List.mem_of_getElem? h)
  | true =>
    obtain ⟨n, hn, hs⟩ := transactionSeq_receive hi s
    rw [hs] at h hl
    rw [length_seqRdbytes _ hn] at hl
    exact isRecv_seqRdbytes (by omega) h

/-- A receive's step k, from 2 on, receives byte k - 2 (R116). -/
theorem recvIndex_transactionSeq {i : Instr} {s : State} {k : Nat} (hi : isReceive i = true) (hk : 2 ≤ k)
    (hl : k + 1 < (transactionSeq i s).length) : recvIndex (transactionSeq i s) k = k - 2 := by
  obtain ⟨n, hn, hs⟩ := transactionSeq_receive hi s
  obtain ⟨j, rfl⟩ := Nat.exists_eq_add_of_le' hk
  rw [hs, length_seqRdbytes _ hn] at hl
  rw [hs, recvIndex_seqRdbytes _ (by omega), Nat.add_sub_cancel]

/-! ### A transaction after some of its answers -/

/-- s with command i in progress, its first n steps met, RXBUF as rb and the BE's port as be. -/
def inProgress (i : Instr) (s : State) (n : Nat) (rb : Vector Byte 32) (be : Option BeAnswer) : State :=
  { s with
    lastCmd := i.opcode, ovr := false, cur := i.opcode, seq := transactionSeq i s, phase := .issue, k := n
    held := if n = 0 then s.held else true
    rxlen := if isReceive i then 0 else s.rxlen
    rxbuf := rb
    beAnswer := be
    busLog := (((transactionSeq i s).take n).map SeqStep.action).reverse ++ s.busLog }

/-- RXBUF holds the bytes that these answers brought, and what s had there after them (R41, R116). -/
def HoldsReceived (i : Instr) (s : State) (as : List BeAnswer) (rb : Vector Byte 32) : Prop :=
  ∀ (m : Nat) (h : m < 32),
    some rb[m] = if isReceive i = true ∧ m + 2 < as.length then (as[m + 2]?).map BeAnswer.rxb else some s.rxbuf[m]

/-- A command that starts a transaction is in progress after its acceptance, at step 0 (R92). -/
theorem exec_start {i : Instr} {s : State} (hb : s.busy = false) (hi : startsTransaction i s) :
    exec i s = .next (inProgress i s 0 s.rxbuf s.beAnswer) := by
  rw [exec_idle hb]
  obtain ⟨hf, hc, hh⟩ := hi
  cases i with
  | wrreg | selreg | rdbyte => rfl
  | rdbytes =>
    have hn : ¬Config.rxDepth < s.count.toNat := Nat.not_lt.2 (hc rfl)
    rw [acceptOf, acceptRdbytes, if_neg hn]
    rfl
  | busstop =>
    rw [acceptOf, acceptBusstop, if_pos (hh rfl)]
    rfl
  | ldcala | ldcalb | ldrawt | ldrawh | compt | comph => cases hf

theorem driveAnswers_append {i : Instr} {as : List BeAnswer} {u v : State} (h : driveAnswers i as u = .next v)
    (bs : List BeAnswer) : driveAnswers i (as ++ bs) u = driveAnswers i bs v := by
  induction as generalizing u with
  | nil =>
    obtain rfl := Host.Outcome.next.inj h
    rfl
  | cons a as ih =>
    simp only [driveAnswers, List.cons_append] at h ⊢
    split at h
    · split at h
      · exact ih h
      · cases h
      · cases h
    · cases h
    · cases h

theorem runCommand_append {i : Instr} {as : List BeAnswer} {s v : State} (h : runCommand i as s = .next v)
    (bs : List BeAnswer) : runCommand i (as ++ bs) s = driveAnswers i bs v := by
  unfold runCommand at h ⊢
  split at h
  · exact driveAnswers_append h bs
  · cases h
  · cases h

section

variable {i : Instr} {u : State} {st : SeqStep} {a : BeAnswer}

/-- One answer to the FSM in ISSUE: SEQ[K] is presented, and the answer checked (R111, R112). -/
theorem driveAnswers_singleton (hi : i.isFsm = true) (hp : u.phase = .issue) (hc : u.cur = i.opcode)
    (hst : u.seq[u.k]? = some st) :
    driveAnswers i [a] u =
      fsmAnswer (resultsOf i) { u with busLog := st.action :: u.busLog, phase := .wait, beAnswer := some a } := by
  have hissue : exec i u = .next { u with busLog := st.action :: u.busLog, phase := .wait } := by
    rw [exec_fsmRunning hi (by simp [hp]) hc, fsmStep, hp]
    simp only [fsmIssue, hst]
  have hanswer := exec_fsmRunning (i := i)
    (s := { u with busLog := st.action :: u.busLog, phase := .wait, beAnswer := some a }) hi nofun hc
  simp only [driveAnswers, hissue, hanswer, fsmStep]
  cases fsmAnswer _ _ <;> rfl

/-- An answer that the step does not meet ends the command (R119). -/
theorem driveAnswers_fail {f : StatusCode} (hi : i.isFsm = true) (hp : u.phase = .issue) (hc : u.cur = i.opcode)
    (hst : u.seq[u.k]? = some st) (hf : st.check.failure a.cond = some f) :
    driveAnswers i [a] u = .next
      (finishFsm f { u with busLog := st.action :: u.busLog, phase := .wait, beAnswer := none }) := by
  rw [driveAnswers_singleton hi hp hc hst]
  simp only [fsmAnswer, hst, hf]

/-- An answer that the step meets has its success effect, and the transaction goes on or is complete (R112, R118). -/
theorem driveAnswers_pass (hi : i.isFsm = true) (hp : u.phase = .issue) (hc : u.cur = i.opcode)
    (hst : u.seq[u.k]? = some st) (hf : st.check.failure a.cond = none) :
    driveAnswers i [a] u = .next (advanceOrComplete (resultsOf i)
      (stepEffect st a.rxb { u with busLog := st.action :: u.busLog, phase := .wait, beAnswer := none })) := by
  rw [driveAnswers_singleton hi hp hc hst]
  simp only [fsmAnswer, hst, hf]

end

/-- The record of actions grows by the action of the step that is issued (R111). -/
theorem cons_take_actions {l : List SeqStep} {n : Nat} {st : SeqStep} (h : l[n]? = some st) (log : List BusAction) :
    st.action :: (((l.take n).map SeqStep.action).reverse ++ log)
      = ((l.take (n + 1)).map SeqStep.action).reverse ++ log := by
  simp [List.take_add_one, h]

section

variable {i : Instr} {s : State} {n : Nat} {st : SeqStep} {a : BeAnswer}

/-- RXBUF of a transaction in progress after step n was met with this byte. -/
def rxbufAfter (i : Instr) (s : State) (n : Nat) (st : SeqStep) (rxb : Byte) (rb : Vector Byte 32) : Vector Byte 32 :=
  if st.isRecv then rb.setIfInBounds (recvIndex (transactionSeq i s) n) rxb else rb

/-- A step that is met and is not the last leads to the next one. -/
theorem inProgress_pass (hi : i.isFsm = true) (hst : (transactionSeq i s)[n]? = some st)
    (hl : n + 1 ≠ (transactionSeq i s).length) (hm : meets st a.cond) (rb : Vector Byte 32) (be : Option BeAnswer) :
    driveAnswers i [a] (inProgress i s n rb be) =
      .next (inProgress i s (n + 1) (rxbufAfter i s n st a.rxb rb) none) := by
  rw [driveAnswers_pass hi rfl rfl hst (failure_eq_none.2 hm)]
  set u : State :=
    { inProgress i s n rb be with
      busLog := st.action :: (inProgress i s n rb be).busLog, phase := .wait, beAnswer := none }
  have hheld : (stepEffect st a.rxb u).held = true :=
    stepEffect_held_of_not_last hst hl (fun hn => if_neg (Nat.pos_iff_ne_zero.1 hn)) a.rxb
  have hrx : (stepEffect st a.rxb u).rxbuf = rxbufAfter i s n st a.rxb rb := stepEffect_rxbuf st a.rxb u
  have hlog : u.busLog = _ := cons_take_actions hst s.busLog
  obtain ⟨hd, rb', he⟩ := stepEffect_eq st a.rxb u
  rw [he] at hheld hrx ⊢
  obtain rfl : hd = true := hheld
  obtain rfl : rb' = _ := hrx
  rw [inProgress, ← hlog]
  exact congrArg Host.Outcome.next (if_neg hl)

/-- The bytes received after one more step that is met and is not the last. -/
theorem holdsReceived_pass {as : List BeAnswer} {rb : Vector Byte 32} (h : HoldsReceived i s as rb)
    (hst : (transactionSeq i s)[as.length]? = some st) (hl : as.length + 1 < (transactionSeq i s).length) :
    HoldsReceived i s (as ++ [a]) (rxbufAfter i s as.length st a.rxb rb) := by
  intro m hm
  have hrecv := isRecv_transactionSeq hst hl
  have hold := h m hm
  by_cases hnew : isReceive i = true ∧ m + 2 = as.length
  · obtain ⟨hi, hn⟩ := hnew
    have hr : st.isRecv = true := by simp [hrecv, hi]; omega
    have hj : recvIndex (transactionSeq i s) as.length = m := by
      rw [recvIndex_transactionSeq hi (by omega) hl]
      omega
    rw [if_pos ⟨hi, by simp; omega⟩, hn, List.getElem?_concat_length]
    simp [rxbufAfter, hr, hj]
  · have hne (hi : isReceive i = true) : m + 2 ≠ as.length := fun hn => hnew ⟨hi, hn⟩
    have hsame : (rxbufAfter i s as.length st a.rxb rb)[m] = rb[m] := by
      unfold rxbufAfter
      split
      · next hr =>
        rw [hrecv] at hr
        have hr : isReceive i = true ∧ 2 ≤ as.length := by simpa using hr
        rw [recvIndex_transactionSeq hr.1 hr.2 hl]
        have hn := hne hr.1
        exact Vector.getElem_setIfInBounds_ne _ (by omega)
      · rfl
    have hcond : (isReceive i = true ∧ m + 2 < (as ++ [a]).length) ↔ (isReceive i = true ∧ m + 2 < as.length) := by
      refine and_congr_right fun hi => ?_
      have hn := hne hi
      rw [List.length_append, List.length_singleton]
      omega
    rw [hsame, hold]
    simp only [hcond]
    split
    · next hc => rw [List.getElem?_append_left hc.2]
    · rfl

end

/-- Each of these answers meets its step of the transaction. -/
def AnswersMeet (i : Instr) (s : State) (as : List BeAnswer) : Prop :=
  ∀ (n : Nat) (st : SeqStep) (a : BeAnswer), (transactionSeq i s)[n]? = some st → as[n]? = some a → meets st a.cond

theorem answersMeet_of_forall₂ {i : Instr} {s : State} {as : List BeAnswer}
    (h : List.Forall₂ (fun st (a : BeAnswer) => meets st a.cond) ((transactionSeq i s).take as.length) as) :
    AnswersMeet i s as := by
  intro n st a hst ha
  obtain ⟨hn, rfl⟩ := List.getElem?_eq_some_iff.1 hst
  obtain ⟨hn', rfl⟩ := List.getElem?_eq_some_iff.1 ha
  simpa using h.get (i := n) (by simp; omega) hn'

theorem answersMeet_left {i : Instr} {s : State} {as bs : List BeAnswer} (h : AnswersMeet i s (as ++ bs)) :
    AnswersMeet i s as :=
  fun n st a hst ha => h n st a hst (by rw [List.getElem?_append_left (List.getElem?_eq_some_iff.1 ha).1, ha])

/-- A command that starts a transaction is in progress after answers that its first steps meet. -/
theorem runCommand_inProgress {i : Instr} {s : State} (hb : s.busy = false) (hi : startsTransaction i s) (as : List BeAnswer)
    (hl : as.length < (transactionSeq i s).length) (hm : AnswersMeet i s as) :
    ∃ rb be, runCommand i as s = .next (inProgress i s as.length rb be) ∧ HoldsReceived i s as rb := by
  induction as using List.reverseRecOn with
  | nil =>
    refine ⟨s.rxbuf, s.beAnswer, ?_, fun m h => by simp⟩
    rw [runCommand, exec_start hb hi]
    rfl
  | append_singleton as a ih =>
    rw [List.length_append, List.length_singleton] at hl ⊢
    obtain ⟨rb, be, hrun, hrb⟩ := ih (by omega) (answersMeet_left hm)
    obtain ⟨st, hst⟩ : ∃ st, (transactionSeq i s)[as.length]? = some st :=
      ⟨_, List.getElem?_eq_getElem (by omega)⟩
    have hmeets := hm as.length st a hst List.getElem?_concat_length
    refine ⟨_, _, (runCommand_append hrun [a]).trans (inProgress_pass hi.1 hst hl.ne hmeets rb be), ?_⟩
    exact holdsReceived_pass hrb hst hl

/-- Settles O21: the answers before the failing one leave the transaction in progress at row j, and the failing one
ends it there. -/
theorem transactionsFailAsTheirTablesSay : Obligations.TransactionsFailAsTheirTablesSay := by
  intro i s as act e f b hb hi hrow hcond hall
  rw [specSeq_eq_transactionSeq] at hrow hall ⊢
  have hl : as.length < (transactionSeq i s).length := (List.getElem?_eq_some_iff.1 hrow).1
  have hf : (SeqStep.check ⟨act, .oneOf e f⟩).failure b.cond = some f := by simp [Check.failure, hcond]
  obtain ⟨rb, be, hrun, hrb⟩ := runCommand_inProgress hb hi as hl (answersMeet_of_forall₂ hall)
  refine ⟨rb, ?_, hrb⟩
  rw [runCommand_append hrun [b], driveAnswers_fail hi.1 rfl rfl hrow hf, ← cons_take_actions hrow]
  rfl

end Sys2Proof.Proofs
end

section
/-! PROOFS. The host port's accesses and refusals, what wakes the block and what clears OVR, and that no step faults. -/

namespace Sys2Proof.Proofs

open Sys2Proof.Machine Sys2Proof.Safety Sys2Proof.Claims

/-! ### Accesses the port refuses -/

theorem accessInWindow_iff {off : Int} : accessInWindow off = true ↔ 0 ≤ off ∧ off < 0x200 := by
  rw [accessInWindow, Bool.and_eq_true]
  exact and_congr decide_eq_true_iff decide_eq_true_iff

/-- The accesses the port takes (R64). -/
theorem wellFormedAccess_iff {off : Int} {bytes : Nat} :
    wellFormedAccess off bytes = true ↔ bytes = 4 ∧ off % 4 = 0 ∧ 0 ≤ off ∧ off < 0x200 := by
  simp only [wellFormedAccess, accessSizeOk, accessAlignedOk, Bool.and_eq_true, beq_iff_eq, accessInWindow_iff, and_assoc]

/-- The port refuses every other access (R64). -/
theorem exists_accessRefusal {off : Int} {bytes : Nat} (h : bytes ≠ 4 ∨ off % 4 ≠ 0 ∨ off < 0 ∨ 0x200 ≤ off) :
    ∃ r, accessRefusal off bytes = some r := by
  refine Option.ne_none_iff_exists'.1 fun hn => ?_
  have hw := wellFormedAccess_iff.1 (accessRefusal_eq_none.1 hn)
  omega

/-- A refusal of the port is the host program's own doing (R64). -/
theorem hostProgramRefusal_accessRefusal {off : Int} {bytes : Nat} {r : Refusal} (h : accessRefusal off bytes = some r) :
    hostProgramRefusal r = true := by
  unfold accessRefusal at h
  repeat' split at h
  all_goals cases h
  all_goals rfl

section

variable {off : Int} {bytes : Nat} {r : Refusal} (h : accessRefusal off bytes = some r)
include h

theorem memWrite_refused (v : Word) (s : State) : memWrite off bytes v s = .refused r := by
  simp only [memWrite, h]

theorem memRead_refused (s : State) : memRead off bytes s = .error r := by
  simp only [memRead, h]

end

/-- A planned move of the HOST is its operation, on the state without that move (R66). -/
theorem step_hostOp {s : State} {rest : List Move} {op : HostOp} (hm : s.moves = .host :: rest)
    (hop : s.host.prog[s.host.pc]? = some op) : step s = runHostOp op { s with moves := rest } :=
  (step_of_moves hm).trans (hostStep_at (s := { s with moves := rest }) hop)

/-- Settles O42: the port's one check refuses both kinds of access, and the HOST's operation with them. -/
theorem badAccessesAreRefused : Obligations.BadAccessesAreRefused := by
  intro s off bytes name v hbad
  obtain ⟨r, hr⟩ := exists_accessRefusal hbad
  refine ⟨r, hostProgramRefusal_accessRefusal hr, memWrite_refused hr v s, memRead_refused hr s, fun rest hm => ⟨?_, ?_⟩⟩
  · intro hop
    exact (step_hostOp hm hop).trans (memWrite_refused hr v _)
  · intro hop
    simp only [step_hostOp hm hop, runHostOp, memRead_refused hr]

/-! ### Accesses the port takes -/

/-- The host's read moves past the operation and writes the name (R66). -/
theorem runHostOp_read {s : State} {off : Int} {bytes : Nat} {w : Word} (hw : memRead off bytes s = .ok w) (name : Nat) :
    runHostOp (.r off bytes name) s =
      .next { s with host := { s.host with vars := setVar s.host.vars name w, pc := s.host.pc + 1 } } := by
  simp only [runHostOp, hw]
  rfl

/-- Settles O43: the planned move is the read, and the newest value of a name stands first. -/
theorem readsChangeOnlyTheHost : Obligations.ReadsChangeOnlyTheHost := by
  intro s rest off name w hm hop hw
  exact ⟨_, (step_hostOp hm hop).trans (runHostOp_read (s := { s with moves := rest }) hw name),
    List.lookup_cons_self, rfl, rfl⟩

/-- A write to a read-only register or a reserved offset changes nothing, idle or busy (R63, R67, R68). -/
theorem writeReg_readOnly {r : HostReg} (h : r.writable = false) (v : Word) (s : State) : writeReg r v s = .next s := by
  cases hb : s.busy with
  | true => rw [writeReg_busy hb, h]; rfl
  | false => rw [writeReg_idle hb (fun hc => by simp [hc, HostReg.writable] at h), storeReg_readOnly h]

/-- The map names no register in R62's three reserved ranges. -/
theorem regAt_reserved {off : Nat} (h : reservedOffset off) : regAt off = .reserved := by
  unfold reservedOffset at h
  have hrx : ¬(0x100 ≤ off ∧ off < 0x180) := by omega
  unfold regAt
  split
  case h_32 => exact if_neg hrx
  all_goals omega

/-- Settles O41: a reserved offset is a read-only register that reads 0. -/
theorem reservedOffsetsReadZero : Obligations.ReservedOffsetsReadZero := by
  intro s off v h4 hres
  have hl : off < 0x200 := by
    unfold reservedOffset at hres
    omega
  rw [memRead_ofNat h4 hl, memWrite_ofNat h4 hl, regAt_reserved hres]
  exact ⟨rfl, writeReg_readOnly rfl v s⟩

/-- BASE is a multiple of the window (R61). -/
theorem base_mod_window : Config.base % 0x200 = 0 := Nat.mul_mod_right _ _

theorem offsetOf_base_add (off : Nat) : offsetOf (Config.base + off) = off := by
  unfold offsetOf
  omega

/-- Within the window the word index does not depend on BASE (R61). -/
theorem four_mul_wordIndex {off : Nat} (h4 : off % 4 = 0) (hl : off < 0x200) : 4 * wordIndex (Config.base + off) = off := by
  have hb := base_mod_window
  unfold wordIndex
  omega

/-- Settles O44: the access's offset is four times the word index. -/
theorem addressBitsGiveTheWordIndex : Obligations.AddressBitsGiveTheWordIndex := by
  intro s v off h4 hl
  have hi := four_mul_wordIndex h4 hl
  rw [offsetOf_base_add, hi]
  exact ⟨base_mod_window, rfl, rfl, memRead_ofNat h4 hl s, memWrite_ofNat h4 hl v s⟩

/-! ### Commands written to CMD -/

/-- A write to CMD in an idle block is accepted (R92). -/
theorem writeReg_cmd_idle {s : State} (hb : s.busy = false) (v : Word) : writeReg .cmd v s = acceptWord v s := by
  rw [writeReg, hb]
  rfl

/-- The HOST's write of a decoded word to CMD in an idle block runs the command (R92). -/
theorem hostStep_writeCmd {s : State} {v : Word} {i : Instr} (hop : s.host.prog[s.host.pc]? = some (HostOp.w 0x000 4 v))
    (hb : s.busy = false) (hd : decode v = .ok i) : hostStep s = exec i (hostNext s) := by
  calc hostStep s
      _ = memWrite ((0x000 : Nat) : Int) 4 v (hostNext s) := hostStep_at hop
      _ = writeReg .cmd v (hostNext s) := memWrite_ofNat rfl (by decide) v _
      _ = acceptWord v (hostNext s) := writeReg_cmd_idle (s := hostNext s) hb v
      _ = exec i (hostNext s) := acceptWord_ok hd _

/-- Settles O4: planned or not, the step is the HOST's. -/
theorem stepRunsTheWrittenCommand : Obligations.StepRunsTheWrittenCommand := by
  intro s v i hop hb hd
  refine ⟨fun rest hm => ?_, fun hm => ?_⟩
  · exact (step_of_moves hm).trans (hostStep_writeCmd (s := { s with moves := rest }) hop hb hd)
  · have ha : hostActive s = true := by simp only [hostActive, hop]
    exact ((runNext_hostAlone hb hm).trans (if_pos ha)).trans (hostStep_writeCmd hop hb hd)

/-- Settles O10: neither unit runs the command. -/
theorem otherCommandsAreTurnedAway : Obligations.OtherCommandsAreTurnedAway := by
  intro i s hb hfsm heng
  cases hi : i.isFsm with
  | true =>
    have hr : fsmRuns i.opcode s = false := by simpa [fsmRuns] using hfsm
    rw [exec_fsm hi, fsmCommand, hr, commandStep_other hb]
    rfl
  | false =>
    have hr : engRuns i.opcode s = false := by simpa [engRuns] using heng
    rw [exec_eng hi, engCommand, hr, commandStep_other hb]
    rfl

/-- Of the map's offsets only 0x000 is CMD's (R62). -/
theorem prog_of_hostWrites_cmd {s : State} {v : Word} (h : HostWrites s .cmd v) :
    s.host.prog[s.host.pc]? = some (HostOp.w 0x000 4 v) := by
  obtain ⟨off, -, -, hr, hop⟩ := h
  obtain rfl := regAt_cmd hr
  exact hop

/-- Every acceptance latches its OPCODE (R92). -/
theorem accept_lastCmd {i : Instr} {s t : State} (h : AcceptEffect s i t) : t.lastCmd = i.opcode := by
  cases h <;> rfl

/-- BUSY rises only by the acceptance of a command (R70). -/
theorem busy_rises_of_move {m : Move} {s t : State} (h : MoveEffect m s t) (hb : s.busy = false) (ht : t.busy = true) :
    ∃ (v : Word) (i : Instr), s.host.prog[s.host.pc]? = some (HostOp.w 0x000 4 v) ∧ decode v = .ok i ∧ t.lastCmd = i.opcode := by
  obtain ⟨hp, he⟩ := busy_eq_false.1 hb
  cases h with
  | accept _ _ v i _ hw hd _ ha => exact ⟨v, i, prog_of_hostWrites_cmd hw, hd, accept_lastCmd ha⟩
  | nothing | host | illegal => exact absurd (hb.symm.trans ht) Bool.false_ne_true
  | store _ hh r v =>
    obtain ⟨_, _, _, _, _, _, _, _, hx⟩ := storeReg_frame r v { s with host := hh }
    rw [hx] at ht
    exact absurd (hb.symm.trans ht) Bool.false_ne_true
  | ignored _ _ hbusy => exact absurd (hb.symm.trans hbusy) Bool.false_ne_true
  | issue _ _ _ _ _ hq | fail _ _ _ _ _ _ _ hq | pass _ _ _ _ _ _ hq => cases hp.symm.trans hq
  | complete _ _ _ _ _ hq => exact absurd (he.symm.trans hq) Bool.false_ne_true
  | reset => cases ht

/-- Settles O58: every step's move raises BUSY only by an acceptance. -/
theorem onlyACommandWriteMakesTheBlockBusy : Obligations.OnlyACommandWriteMakesTheBlockBusy := by
  intro s t h hb ht
  obtain ⟨m, ms, -, he⟩ := step_effect h
  exact busy_rises_of_move (s := { s with moves := ms }) he hb ht

/-! ### OVR -/

/-- R67's registers are those at its eight offsets. -/
theorem writable_iff_mem_writableOffsets {off : Nat} : (regAt off).writable = true ↔ off ∈ writableOffsets :=
  ⟨mem_writableOffsets, (by decide : ∀ n ∈ writableOffsets, (regAt n).writable = true) off⟩

/-- OVR is cleared only where a write to CMD is accepted, and by a reset (R67, R92). -/
theorem ovr_cleared_of_move {m : Move} {s t : State} (h : MoveEffect m s t) (hs : s.ovr = true) (ht : t.ovr = false) :
    (s.busy = false ∧ hostWrites s 0x000) ∨ resets s t := by
  have kept {p : Prop} (hk : t.ovr = s.ovr) : p := absurd (ht.symm.trans (hk.trans hs)) Bool.false_ne_true
  cases h with
  | accept _ _ v _ _ hw _ hb | illegal _ _ v _ hw hb => exact .inl ⟨hb, 4, v, prog_of_hostWrites_cmd hw⟩
  | reset => exact .inr rfl
  | nothing | host | issue | fail => exact kept rfl
  | ignored => cases ht
  | store _ hh r v =>
    obtain ⟨_, _, _, _, _, _, _, _, hx⟩ := storeReg_frame r v { s with host := hh }
    exact kept (by rw [hx])
  | pass _ i st a =>
    obtain ⟨_, _, _, _, hx⟩ := passed_eq i st a.rxb { s with beAnswer := none }
    exact kept (by rw [hx])
  | complete _ _ _ _ _ _ hx =>
    obtain ⟨_, _, rfl⟩ := complete_frame hx
    exact kept rfl

/-- Settles O36: the port's write while BUSY = 1, and the moves that clear OVR. -/
theorem writesWhileBusyAreIgnored : Obligations.WritesWhileBusyAreIgnored := by
  refine ⟨fun s off v hb h4 hl => ?_, fun s t h hs ht => ?_⟩
  · rw [memWrite_ofNat h4 hl, writeReg_busy hb]
    simp only [writable_iff_mem_writableOffsets]
    rfl
  · obtain ⟨m, ms, -, he⟩ := step_effect h
    exact ovr_cleared_of_move (s := { s with moves := ms }) he hs ht

/-! ### No step faults -/

theorem safeOutcome_of_next {o : Result} (h : ∃ t, o = .next t) : SafeOutcome o := by
  obtain ⟨t, rfl⟩ := h
  trivial

/-- A register's write always has a next state: a CMD write in an idle block is an acceptance, of a command or of an illegal
opcode (R67, R68, R92, R94). -/
theorem exists_writeReg_next (r : HostReg) (v : Word) (s : State) : ∃ t, writeReg r v s = .next t := by
  cases hb : s.busy with
  | true => exact ⟨_, writeReg_busy hb r v⟩
  | false =>
    by_cases hr : r = .cmd
    · rw [hr, writeReg_cmd_idle hb]
      cases hd : decode v with
      | ok i => exact ⟨_, (acceptWord_ok hd s).trans (exec_idle hb i)⟩
      | error e => exact ⟨_, acceptWord_error hd s⟩
    · exact ⟨_, writeReg_idle hb hr v⟩

theorem safeOutcome_memWrite (off : Int) (bytes : Nat) (v : Word) (s : State) : SafeOutcome (memWrite off bytes v s) := by
  cases hr : accessRefusal off bytes with
  | none =>
    refine safeOutcome_of_next ?_
    simpa only [memWrite, hr] using exists_writeReg_next _ v s
  | some r =>
    rw [memWrite_refused hr]
    exact hostProgramRefusal_accessRefusal hr

/-- The HOST's operation stops only at an access the port refuses, or at a name it has not read (R64, R99). -/
theorem safeOutcome_runHostOp (op : HostOp) (s : State) : SafeOutcome (runHostOp op s) := by
  cases op with
  | w off bytes v => exact safeOutcome_memWrite off bytes v _
  | r off bytes name =>
    cases hr : accessRefusal off bytes with
    | none => simp only [runHostOp, memRead, hr, SafeOutcome]
    | some r =>
      simp only [runHostOp, memRead_refused hr]
      exact hostProgramRefusal_accessRefusal hr
  | bne name | beq name | setStatus _ name | setIdentity name =>
    cases hv : readVar s.host.vars name <;> simp only [runHostOp, hv, SafeOutcome, hostProgramRefusal]
  | sleep | beqStatus | call | ret | done => trivial

theorem safeOutcome_hostStep (s : State) : SafeOutcome (hostStep s) := by
  cases hop : s.host.prog[s.host.pc]? with
  | none => simp only [hostStep, hop, SafeOutcome]
  | some op =>
    rw [hostStep_at hop]
    exact safeOutcome_runHostOp op s

/-- In a transaction SEQ has a step K, so the FSM has a next state (R29). -/
theorem exists_exec_next_of_inTransaction {i : Instr} {s : State} (h : InTransaction i s) (hp : s.phase ≠ .idle) :
    ∃ t, exec i s = .next t := by
  rw [exec_fsmRunning h.unit hp h.cur]
  exact fsmStep_of_step (List.getElem?_eq_getElem h.inRange)

/-- Each move of each agent, from a state with the unit invariant. -/
theorem safeOutcome_runMove (m : Move) {s : State} (h : ControlInv s) : SafeOutcome (runMove m s) := by
  cases m with
  | host => exact safeOutcome_hostStep s
  | reset => trivial
  | fsm =>
    by_cases hp : s.phase = .issue
    · have hbusy : s.phase ≠ .idle := by simp [hp]
      obtain ⟨i, hi⟩ := h.busyFsm hbusy
      rw [runMove_fsm hp hi.unit hi.cur]
      exact safeOutcome_of_next (exists_exec_next_of_inTransaction hi hbusy)
    · simp only [runMove, hp, if_false, SafeOutcome]
  | be c r =>
    by_cases hp : s.phase = .wait
    · have hbusy : s.phase ≠ .idle := by simp [hp]
      obtain ⟨i, hi⟩ := h.busyFsm hbusy
      rw [runMove_be hp hi.unit hi.cur]
      have hi' : InTransaction i { s with beAnswer := some ⟨c, r⟩ } := inTransaction_frame hi _ _ _ _ _ _
      exact safeOutcome_of_next (exists_exec_next_of_inTransaction hi' hbusy)
    · simp only [runMove, hp, if_false, SafeOutcome]
  | eng =>
    cases he : s.engPending with
    | true =>
      obtain ⟨-, i, hi, hl⟩ := h.busyEng he
      rw [runMove_eng he hi hl]
      exact safeOutcome_of_next ⟨_, exec_engRunning hi he hl⟩
    | false => simp only [runMove, he, Bool.false_eq_true, if_false, SafeOutcome]

/-- Settles O52: the step is a move from a state with the invariant, or nothing. -/
theorem stepsNeverFault : Obligations.StepsNeverFault := by
  intro s h
  rcases step_eq s with ⟨m, rest, -, hs⟩ | ⟨m, -, -, hs⟩ | ⟨-, -, hs⟩
  · rw [hs]
    exact safeOutcome_runMove m (controlInv_frame h _ rest _)
  · rw [hs]
    exact safeOutcome_runMove m h
  · exact safeOutcome_of_next ⟨_, hs⟩

end Sys2Proof.Proofs
end

section
/-! PROOFS. The command word and the command it stands for, what each command's acceptance does, what an engine command leaves alone,
and how a failing procedure of the reference host returns. -/

namespace Sys2Proof.Proofs

open Sys2Proof.Machine Sys2Proof.Safety Sys2Proof.Claims

/-! ### Words and commands -/

/-- A word is the bits above its OPCODE, and its OPCODE (R90). -/
theorem append_opcodeField (v : Word) : v.extractLsb' 8 24 ++ opcodeField v = v :=
  BitVec.extractLsb'_append_extractLsb'

/-- The words with a command's OPCODE are its encodings (R90, R91). -/
theorem opcodeField_eq_opcode_iff {v : Word} {i : Instr} : opcodeField v = i.opcode ↔ ∃ g, v = encodeWith g i := by
  constructor
  · intro h
    exact ⟨v.extractLsb' 8 24, by rw [encodeWith, ← h, append_opcodeField]⟩
  · rintro ⟨g, rfl⟩
    exact opcodeField_encodeWith g i

/-- The decoder answers the command whose OPCODE the word has (R93). -/
theorem decode_eq_ok_iff {v : Word} {i : Instr} : decode v = .ok i ↔ opcodeField v = i.opcode := by
  rw [decode_eq_decodeOpcode]
  constructor
  · intro h
    exact (decodeOpcode_ok h).1.symm
  · intro h
    rw [h, decodeOpcode_opcode]

/-- Settles O1: each side says that the word has the command's OPCODE. -/
theorem decodeAndEncodeAgree : Obligations.DecodeAndEncodeAgree :=
  fun _ _ => decode_eq_ok_iff.trans opcodeField_eq_opcode_iff

theorem decode_encodeWith (g : BitVec 24) (i : Instr) : decode (encodeWith g i) = .ok i :=
  decode_eq_ok_iff.2 (opcodeField_encodeWith g i)

/-- Settles O3: each row's word is its command's encoding. -/
theorem mapWordsDecode : Obligations.MapWordsDecode :=
  ⟨decode_encodeWith 0 .wrreg, decode_encodeWith 0 .selreg, decode_encodeWith 0 .rdbyte, decode_encodeWith 0 .rdbytes,
    decode_encodeWith 0 .busstop, decode_encodeWith 0 .ldcala, decode_encodeWith 0 .ldcalb, decode_encodeWith 0 .ldrawt,
    decode_encodeWith 0 .ldrawh, decode_encodeWith 0 .compt, decode_encodeWith 0 .comph, decode_encodeWith 0xABCDEF .compt⟩

/-! ### Illegal words -/

/-- A word's low n bits are its number, narrowed to n bits (R8). -/
theorem extractLsb'_zero_eq_ofNat (n : Nat) (v : Word) : v.extractLsb' 0 n = BitVec.ofNat n v.toNat := by
  apply BitVec.eq_of_toNat_eq
  simp [BitVec.extractLsb'_toNat]

theorem opcodeField_eq_ofNat (v : Word) : opcodeField v = BitVec.ofNat 8 v.toNat := extractLsb'_zero_eq_ofNat 8 v

/-- The illegal OPCODEs are R94's three ranges. -/
theorem legalOpcode_eq_false_iff {op : Byte} :
    legalOpcode op = false ↔ op.toNat = 0 ∨ (0x06 ≤ op.toNat ∧ op.toNat ≤ 0x0F) ∨ 0x16 ≤ op.toNat := by
  simp only [legalOpcode, Bool.or_eq_false_iff, Bool.and_eq_false_iff, decide_eq_false_iff_not]
  omega

/-- The decoder rejects exactly the words with an illegal OPCODE, by that OPCODE (R94). -/
theorem decode_eq_error_iff {v : Word} :
    decode v = .error (.illegalOpcode (opcodeField v)) ↔ legalOpcode (opcodeField v) = false := by
  rw [decode_eq_decodeOpcode]
  constructor
  · intro h
    exact (decodeOpcode_error h).2
  · intro h
    cases hd : decodeOpcode (opcodeField v) with
    | ok i => exact absurd (h.symm.trans (decodeOpcode_ok hd).2) Bool.false_ne_true
    | error e => rw [(decodeOpcode_error hd).1]

/-- Settles O2: the decoder rejects the illegal OPCODEs, and those are R94's ranges. -/
theorem illegalOpcodesAreRejectedByValue : Obligations.IllegalOpcodesAreRejectedByValue := by
  intro v
  rw [← opcodeField_eq_ofNat, decode_eq_error_iff, legalOpcode_eq_false_iff, opcodeField_eq_ofNat, BitVec.toNat_ofNat]

/-- Settles O11: the write to CMD is accepted, and its word is one the decoder rejects. -/
theorem illegalOpcodeOnlyWritesItsCode : Obligations.IllegalOpcodeOnlyWritesItsCode := by
  intro s v hb hv
  refine ⟨?_, hb, rfl⟩
  calc memWrite ((0x000 : Nat) : Int) 4 v s
      _ = writeReg .cmd v s := memWrite_ofNat rfl (by decide) v s
      _ = acceptWord v s := writeReg_cmd_idle hb v
      _ = .next (illegalOpcode (opcodeField v) s) := acceptWord_error ((illegalOpcodesAreRejectedByValue v).2 hv) s
      _ = _ := by rw [opcodeField_eq_ofNat]; rfl

/-! ### Acceptance -/

/-- Settles O6: a command that starts a transaction is in progress at step 0 of its table's SEQ. -/
theorem i2cCommandsAreAccepted : Obligations.I2cCommandsAreAccepted := by
  intro i s hb hi
  rw [exec_start hb hi, specSeq_eq_transactionSeq]
  rfl

/-- Settles O7: an overlong burst takes the acceptance that ends at once. -/
theorem overlongBurstEndsAtAcceptance : Obligations.OverlongBurstEndsAtAcceptance := by
  intro s hb hn
  have hlong : Config.rxDepth < s.count.toNat := hn
  rw [exec_idle hb, acceptOf, acceptRdbytes, if_pos hlong]
  rfl

/-- Settles O8: with HELD = 0 BUSSTOP takes the acceptance that ends at once. -/
theorem busstopOnFreeBusEndsAtAcceptance : Obligations.BusstopOnFreeBusEndsAtAcceptance := by
  intro s hb hh
  rw [exec_idle hb, acceptOf, acceptBusstop, if_neg (by simp [hh])]
  rfl

/-! ### Engine commands -/

theorem acceptOf_engine {i : Instr} (hi : i.isFsm = false) : acceptOf i = acceptEng i.opcode := by
  cases i with
  | wrreg | selreg | rdbyte | rdbytes | busstop => cases hi
  | ldcala | ldcalb | ldrawt | ldrawh | compt | comph => rfl

/-- Settles O9: the acceptance makes the command the pending one, and its completion writes only the engine's fields, CODE and
ENG_PENDING. -/
theorem engineCommandsEndInTheirNextStep : Obligations.EngineCommandsEndInTheirNextStep := by
  intro i s hi hb
  constructor
  · rw [exec_idle hb, acceptOf_engine hi]
    rfl
  · obtain ⟨hp, -⟩ := busy_eq_false.1 hb
    obtain ⟨_, _, hc⟩ := complete_frame (completeOf_effect hi { s with lastCmd := i.opcode, ovr := false, engPending := true })
    refine ⟨_, exec_engRunning hi rfl rfl, ?_⟩
    rw [hc]
    exact ⟨busy_eq_false.2 ⟨hp, rfl⟩, rfl, rfl⟩

/-- Of the engine's fields but TFV, a completion writes only its own command's (R181, R192, R198). -/
theorem complete_keeps_others_fields {i : Instr} {s t : State} (h : CompleteEffect s i t) :
    (i ≠ .ldrawt → t.rawt = s.rawt) ∧ (i ≠ .ldrawh → t.rawh = s.rawh)
    ∧ (i ≠ .compt → t.temp = s.temp ∧ t.tfine = s.tfine ∧ t.tclo = s.tclo ∧ t.tchi = s.tchi)
    ∧ (i ≠ .comph → t.hum = s.hum ∧ t.hclo = s.hclo ∧ t.hchi = s.hchi)
    ∧ (i ≠ .ldcala ∧ i ≠ .ldcalb → t.cal = s.cal ∧ t.calb = s.calb) ∧ (i ≠ .ldcala → t.cala = s.cala) := by
  cases h with
  | refused | ldcala | ldcalb | ldrawt | ldrawh | compt | comph => simp

/-- Settles O32: an acceptance and a write turned away touch none of these, and a completion only the engine's own. -/
theorem engineCommandsFrame : Obligations.EngineCommandsFrame := by
  intro i s t hi h
  rw [exec_eng hi] at h
  rcases engCommand_cases i.opcode (completeOf i) s with ⟨-, hx⟩ | ⟨-, -, hx⟩ | ⟨-, -, hx⟩
  · obtain rfl := Host.Outcome.next.inj (hx.symm.trans h)
    simp
  · obtain rfl := Host.Outcome.next.inj (hx.symm.trans h)
    have he := completeOf_effect hi s
    have hown := complete_keeps_others_fields he
    obtain ⟨_, _, hc⟩ := complete_frame he
    rw [hc] at hown ⊢
    exact ⟨rfl, rfl, rfl, rfl, rfl, rfl, rfl, rfl, rfl, rfl, rfl, rfl, rfl, hown⟩
  · obtain rfl := Host.Outcome.next.inj (hx.symm.trans h)
    simp

/-! ### Several steps of the machine -/

theorem coreRun_succ {M : Host.Core} {s t : M.State} (h : M.step s = .next t) (n : Nat) : M.run (n + 1) s = M.run n t := by
  rw [Host.Core.run, h]

theorem coreRun_one {M : Host.Core} (s : M.State) : M.run 1 s = M.step s := by
  rw [Host.Core.run]
  cases M.step s <;> rfl

theorem run_succ_of_step {s t : State} (h : step s = .next t) (n : Nat) :
    Host.Core.run Sys2Proof.core (n + 1) s = Host.Core.run Sys2Proof.core n t :=
  coreRun_succ h n

theorem run_one (s : State) : Host.Core.run Sys2Proof.core 1 s = step s :=
  coreRun_one (M := Sys2Proof.core) s

/-- A state that its step keeps is kept by every number of steps. -/
theorem run_of_step_self {s : State} (h : step s = .next s) (n : Nat) : Host.Core.run Sys2Proof.core n s = .next s := by
  induction n with
  | zero => rfl
  | succ n ih => rw [run_succ_of_step h, ih]

/-! ### The HOST alone -/

/-- A HOST with nothing left to do stays where it is. -/
theorem hostStep_of_not_hostActive {s : State} (h : hostActive s = false) : hostStep s = .next s := by
  unfold hostActive at h
  split at h
  · next hop => simp only [hostStep, hop]
  · next hop => exact hostStep_at hop
  · next hop =>
    have hr : s.host.returns = [] := by simpa using h
    rw [hostStep_at hop, runHostOp, hostReturn_of_no_caller s hr]
  · cases h

/-- With the block idle and no move planned, the machine's step is the HOST's operation. -/
theorem step_hostAlone {s : State} {op : HostOp} (hb : s.busy = false) (hm : s.moves = [])
    (hop : s.host.prog[s.host.pc]? = some op) : step s = runHostOp op s := by
  rw [← hostStep_at hop]
  refine (runNext_hostAlone hb hm).trans ?_
  cases ha : hostActive s with
  | true => rfl
  | false => exact (hostStep_of_not_hostActive ha).symm

/-- The three operations by which a procedure returns a failure: a comparison that goes past them where it holds, the status record
and the return. -/
structure FailureReturn (prog : List HostOp) (pc name hi lo v : Nat) (st : HostStatus) : Prop where
  compare : prog[pc]? = some (.beq name hi lo v 3)
  record  : prog[pc + 1]? = some (.setStatus st nameS)
  ret     : prog[pc + 2]? = some .ret

/-- s with a failure recorded, its status and the CODE of the STATUS word x, and the HOST at the return (R221, R233). -/
def atReturn (st : HostStatus) (x : Word) (s : State) : State :=
  { s with host := { s.host with status := some st, blockCode := BitVec.ofNat 4 x.toNat, pc := s.host.pc + 2 } }

section

variable {s : State} {name hi lo v : Nat} {st : HostStatus} {w x : Word}
  (hb : s.busy = false) (hm : s.moves = []) (hf : FailureReturn s.host.prog s.host.pc name hi lo v st)
  (hw : readVar s.host.vars name = some w) (hv : bitsOf w hi lo ≠ v) (hx : readVar s.host.vars nameS = some x)

include hb hm hf in
theorem step_atReturn : step (atReturn st x s) = .next (hostReturn (atReturn st x s)) :=
  step_hostAlone (s := atReturn st x s) hb hm hf.ret

include hb hm hf hw hv hx

/-- Where the comparison fails, the HOST has recorded the failure two steps later, and is at the return (R233). -/
theorem run_to_return (n : Nat) :
    Host.Core.run Sys2Proof.core (n + 2) s = Host.Core.run Sys2Proof.core n (atReturn st x s) := by
  have h1 : step s = .next (hostNext s) := by
    rw [step_hostAlone hb hm hf.compare]
    simp only [runHostOp, hw, hv, if_false]
  have h2 : step (hostNext s) = .next (atReturn st x s) := by
    rw [step_hostAlone (s := hostNext s) hb hm hf.record]
    simp only [runHostOp, hostNext_host, hx, extractLsb'_zero_eq_ofNat]
    rfl
  rw [run_succ_of_step h1, run_succ_of_step h2]

/-- A failing procedure goes on where its caller does, or stays at its return if it has none (R233). -/
theorem run_failure {u : HostAgent}
    (hu : u = { s.host with status := some st, blockCode := BitVec.ofNat 4 x.toNat }) :
    (∀ place rest, s.host.returns = place :: rest →
      Host.Core.run Sys2Proof.core 3 s = .next { s with host := { u with pc := place, returns := rest } })
    ∧ (s.host.returns = [] → ∀ n,
      Host.Core.run Sys2Proof.core (n + 2) s = .next { s with host := { u with pc := s.host.pc + 2 } }) := by
  have hret := step_atReturn (x := x) hb hm hf
  subst hu
  refine ⟨fun place rest hr => ?_, fun hr n => ?_⟩
  · rw [hostReturn_of_caller (atReturn st x s) place rest hr] at hret
    rw [run_to_return hb hm hf hw hv hx 1, run_one, hret]
    rfl
  · rw [hostReturn_of_no_caller (atReturn st x s) hr] at hret
    rw [run_to_return hb hm hf hw hv hx n, run_of_step_self hret]
    rfl

end

/-! ### Places in a program -/

/-- An operation of a part of a program, at its place in the whole. -/
theorem getElem?_of_part {prog front part back : List HostOp} {k : Nat} {op : HostOp} (hp : prog = front ++ part ++ back)
    (hk : part[k]? = some op) : prog[front.length + k]? = some op := by
  have hlt : k < part.length := (List.getElem?_eq_some_iff.1 hk).1
  rw [hp, List.append_assoc, List.getElem?_append_right (Nat.le_add_right _ _), Nat.add_sub_cancel_left,
    List.getElem?_append_left hlt, hk]

theorem failureReturn_of_part {prog front part back : List HostOp} {k name hi lo v : Nat} {st : HostStatus}
    (hp : prog = front ++ part ++ back) (h : FailureReturn part k name hi lo v st) :
    FailureReturn prog (front.length + k) name hi lo v st :=
  ⟨getElem?_of_part hp h.compare, getElem?_of_part hp h.record, getElem?_of_part hp h.ret⟩

/-- A procedure's EXEC returns a failure after its WAIT (R100, R233). -/
theorem failureReturn_hostExecOr (i : Instr) (st : HostStatus) : FailureReturn (hostExecOr i st) 3 nameS 3 0 0 st :=
  ⟨rfl, rfl, rfl⟩

/-- `initialize` compares the identity byte before its first WRREG (R222, R223). -/
theorem failureReturn_initializeProc (p : SensorParams) (startup : Option Nat) :
    FailureReturn (initializeProc p startup) 15 nameId 7 0 p.chipId.toNat .idMismatch :=
  ⟨rfl, rfl, rfl⟩

/-! ### A failing procedure and its caller -/

theorem bitsOf_three_zero (x : Word) : bitsOf x 3 0 = x.toNat % 16 := by simp [bitsOf]

theorem bitsOf_seven_zero (x : Word) : bitsOf x 7 0 = x.toNat % 256 := by simp [bitsOf]

/-- The places of a caller that recovers: its call, its look at the status after the procedure, its BUSSTOP, and the same again with
one repeat less (R233). -/
theorem recoverable_places {prog front proc back : List HostOp} {good : HostStatus} {times : Nat}
    (hp : prog = front ++ callUnder (.recoverable (times + 1)) good proc ++ back) :
    prog[front.length]? = some (.call proc.length)
    ∧ (∃ distance, prog[front.length + 1 + proc.length]? = some (.beqStatus good distance))
    ∧ prog[front.length + 1 + proc.length + 1]? = some (hostCmd .busstop)
    ∧ prog.drop (front.length + proc.length + 5) = callUnder (.recoverable times) good proc ++ back := by
  obtain ⟨distance, hpart⟩ : ∃ distance, prog = (front ++ .call proc.length :: proc)
      ++ .beqStatus good distance :: (hostExec .busstop ++ (callUnder (.recoverable times) good proc ++ back)) := by
    refine ⟨(hostExec .busstop ++ callRecoverable good proc times).length + 1, ?_⟩
    simp only [hp, callUnder, callRecoverable, List.cons_append, List.append_assoc, List.nil_append]
  have hlen : (front ++ HostOp.call proc.length :: proc).length = front.length + 1 + proc.length := by
    rw [List.length_append, List.length_cons]
    omega
  have hafter : front.length + proc.length + 5 = front.length + 1 + proc.length + 4 := by omega
  rw [hafter, ← hlen, hpart]
  refine ⟨?_, ⟨distance, ?_⟩, ?_, ?_⟩
  · simp
  · simp
  · rw [List.getElem?_append_right (Nat.le_add_right _ 1), Nat.add_sub_cancel_left]
    rfl
  · rw [List.drop_length_add_append]
    rfl

/-- After a status that is not the one it wants, a caller that recovers issues BUSSTOP (R148, R233). -/
theorem run_two_of_recovery {s : State} {good : HostStatus} {distance : Int} (hb : s.busy = false) (hm : s.moves = [])
    (hlook : s.host.prog[s.host.pc]? = some (.beqStatus good distance))
    (hstop : s.host.prog[s.host.pc + 1]? = some (hostCmd .busstop)) (hst : s.host.status ≠ some good) :
    Host.Core.run Sys2Proof.core 2 s = exec .busstop (hostNext (hostNext s)) := by
  have h1 : step s = .next (hostNext s) := by
    rw [step_hostAlone hb hm hlook]
    simp only [runHostOp, hst, if_false]
  have h2 : step (hostNext s) = exec .busstop (hostNext (hostNext s)) := by
    rw [step_hostAlone (s := hostNext s) hb hm hstop, ← hostStep_at (s := hostNext s) hstop]
    exact hostStep_writeCmd (s := hostNext s) hstop hb (decode_encodeWith 0 .busstop)
  rw [run_succ_of_step h1, run_one, h2]

/-- Settles O60: a failed comparison is followed by the record and the return, wherever the procedure stands in the program; and
a caller that recovers goes from its look at the status to the BUSSTOP and to the same again. -/
theorem failedProcedureReturnsToItsCaller : Obligations.FailedProcedureReturnsToItsCaller := by
  refine ⟨fun s i st front back x hb hm hprog hpc hx => ?_,
    fun s p startup front back x w hb hm hprog hpc hx hw hid u hu => ?_,
    fun s good proc front back times hb hm hprog => ?_⟩
  · have hf : FailureReturn s.host.prog s.host.pc nameS 3 0 0 st :=
      hpc ▸ failureReturn_of_part hprog (failureReturn_hostExecOr i st)
    rw [← bitsOf_three_zero]
    refine ⟨fun hv => ?_, fun hv u hu => ?_⟩
    · rw [step_hostAlone hb hm hf.compare]
      simp only [runHostOp, hx, hv, if_true, hostJump, hpc]
      rfl
    · have h := run_failure hb hm hf hx hv hx hu
      rwa [hpc] at h
  · have hf : FailureReturn s.host.prog s.host.pc nameId 7 0 p.chipId.toNat .idMismatch :=
      hpc ▸ failureReturn_of_part hprog (failureReturn_initializeProc p startup)
    rw [← bitsOf_seven_zero] at hid
    have h := run_failure hb hm hf hw hid hx hu
    rwa [hpc] at h
  · obtain ⟨hcall, ⟨distance, hlook⟩, hstop, hagain⟩ := recoverable_places hprog
    refine ⟨fun hpc => ?_, fun hpc hst => ⟨?_, hagain⟩⟩
    · rw [← hpc] at hcall
      rw [step_hostAlone hb hm hcall, runHostOp, hostCall, hpc]
    · rw [← hpc] at hlook hstop
      have hpc' : s.host.pc + 1 + 1 = front.length + proc.length + 3 := by omega
      have hat : hostNext (hostNext s) = { s with host := { s.host with pc := front.length + proc.length + 3 } } := by
        simp only [hostNext, hpc']
      rw [run_two_of_recovery hb hm hlook hstop hst, hat]

end Sys2Proof.Proofs
end

section
/-! PROOFS. The steps of a transaction one by one, whole transactions that succeed, and the hang. -/

namespace Sys2Proof.Proofs

open Sys2Proof.Machine Sys2Proof.Safety Sys2Proof.Claims

/-! ### One step of the transaction in progress -/

section

variable {i : Instr} {s : State} {st : SeqStep} {b : BeAnswer} (hi : i.isFsm = true) (hc : s.cur = i.opcode)

include hi hc

/-- The issue step of the command that CUR names (R111). -/
theorem exec_issue (hp : s.phase = .issue) (hst : s.seq[s.k]? = some st) :
    exec i s = .next { s with busLog := st.action :: s.busLog, phase := .wait } := by
  rw [exec_fsmRunning hi (by simp [hp]) hc, fsmStep, hp]
  simp only [fsmIssue, hst]

/-- In WAIT, the step of the command that CUR names is the BE answer step (R112). -/
theorem exec_wait (hp : s.phase = .wait) : exec i s = fsmAnswer (resultsOf i) s := by
  rw [exec_fsmRunning hi (by simp [hp]) hc, fsmStep, hp]

/-- An answer outside E ends the command with the step's own code (R112, R119). -/
theorem exec_fail {e : List Byte} {f : StatusCode} (hp : s.phase = .wait) (hst : s.seq[s.k]? = some st)
    (hb : s.beAnswer = some b) (hf : st.check = .oneOf e f) (he : b.cond ∉ e) :
    exec i s = .next (finishFsm f { s with beAnswer := none }) := by
  have hfail : st.check.failure b.cond = some f := by simp [hf, Check.failure, he]
  rw [exec_wait hi hc hp]
  simp only [fsmAnswer, hb, hst, hfail]

/-- An answer that the step meets has its success effect, and the transaction goes on or is complete (R112, R118). -/
theorem exec_pass (hp : s.phase = .wait) (hst : s.seq[s.k]? = some st) (hb : s.beAnswer = some b) (hm : meets st b.cond) :
    exec i s = .next (advanceOrComplete (resultsOf i) (stepEffect st b.rxb { s with beAnswer := none })) := by
  rw [exec_wait hi hc hp]
  simp only [fsmAnswer, hb, hst, failure_eq_none.2 hm]

/-- A met step that is not the last leaves its success effect and the FSM at the next step (section 2 of
spec/40_bus_steps.md). -/
theorem exec_advance (hp : s.phase = .wait) (hst : s.seq[s.k]? = some st) (hl : s.k + 1 ≠ s.seq.length)
    (hb : s.beAnswer = some b) (hm : meets st b.cond) :
    exec i s = .next { stepEffect st b.rxb { s with beAnswer := none } with phase := .issue, k := s.k + 1 } := by
  rw [exec_pass hi hc hp hst hb hm]
  obtain ⟨hd, rb, he⟩ := stepEffect_eq st b.rxb { s with beAnswer := none }
  rw [he]
  exact congrArg Host.Outcome.next (if_neg hl)

end

/-- Settles O12: the command that CUR names issues in ISSUE, and in WAIT looks for an answer. -/
theorem issuePresentsTheActionAndWaits : Obligations.IssuePresentsTheActionAndWaits := by
  intro i s st hi hc hst
  refine ⟨fun hp => exec_issue hi hc hp hst, fun hp hn => ?_⟩
  rw [exec_wait hi hc hp]
  simp only [fsmAnswer, hn]

/-- Settles O13: the check of SEQ[K] gives the code of the row. -/
theorem failedStepEndsTheCommand : Obligations.FailedStepEndsTheCommand := by
  intro i s a e f b hi hc hp hst hb he
  exact exec_fail hi hc hp hst hb rfl he

/-- Settles O14: the success effect by the step's action; the byte of a RECV goes to the index that counts the RECV steps
before it. -/
theorem metStepAdvances : Obligations.MetStepAdvances := by
  intro i s st b hi hc hp hst hl hb hm
  have hx := exec_advance hi hc hp hst hl hb hm
  refine ⟨fun ha => ?_, fun x ha => ?_, fun ack ha => ?_⟩
  · simpa only [stepEffect, ha] using hx
  · simpa only [stepEffect, ha] using hx
  · simp only [stepEffect, ha] at hx
    refine ⟨_, hx, fun m h => ?_⟩
    rw [Vector.getElem_setIfInBounds]
    simp only [recvIndex, List.countP_eq_length_filter, eq_comm]

/-! ### The last step -/

/-- A receive's SEQ is R146's for the bytes it receives, of which there is at least one (R144, R146). -/
theorem transactionSeq_eq_seqRdbytes {i : Instr} (hi : isReceive i = true) (s : State) :
    transactionSeq i s = seqRdbytes s.dev (bytesReceived i s) ∧ 1 ≤ bytesReceived i s := by
  cases i with
  | rdbyte => exact ⟨(seqRdbytes_one s.dev).symm, le_rfl⟩
  | rdbytes => exact ⟨rfl, one_le_burstLength s.count⟩
  | _ => cases hi

theorem bytesReceived_of_not_receive {i : Instr} (hi : isReceive i = false) (s : State) : bytesReceived i s = 0 := by
  cases i with
  | rdbyte | rdbytes => cases hi
  | _ => rfl

/-- RXLEN after a completion: the bytes that the command receives (R118, R141). -/
theorem resultsOf_eq {i : Instr} {s : State} (hs : s.seq = transactionSeq i s) :
    resultsOf i s = { s with rxlen := if isReceive i then BitVec.ofNat 8 (bytesReceived i s) else s.rxlen } := by
  cases hi : isReceive i with
  | false => exact congrFun (resultsOf_of_not_receive hi) s
  | true =>
    obtain ⟨hq, hn⟩ := transactionSeq_eq_seqRdbytes hi s
    rw [resultsOf_of_receive hi, receiveResults, hs, hq, recvCount_seqRdbytes _ hn]
    rfl

/-- The completion at K = length(SEQ) (R118). -/
theorem advanceOrComplete_last {i : Instr} {s : State} (hs : s.seq = transactionSeq i s) (hl : s.k + 1 = s.seq.length) :
    advanceOrComplete (resultsOf i) s = { s with
      code := .ok, phase := .idle, k := 0
      rxlen := if isReceive i then BitVec.ofNat 8 (bytesReceived i s) else s.rxlen } := by
  rw [advanceOrComplete, if_pos hl, resultsOf_eq hs]
  rfl

/-- The last step of every SEQ is a STOP, but SELREG's with SELHOLD = 1, whose last step is the index byte (R142). -/
theorem transactionSeq_last {i : Instr} {s : State} {k : Nat} {st : SeqStep} (hk : (transactionSeq i s)[k]? = some st)
    (hl : k + 1 = (transactionSeq i s).length) :
    (st = stopStep ∧ (decide (i = .selreg) && s.selhold) = false) ∨
    (i = .selreg ∧ s.selhold = true ∧ 0 < k ∧ st = dataStep s.regidx) := by
  cases i with
  | wrreg | rdbyte | busstop =>
    obtain rfl := Nat.succ.inj hl
    exact .inl ⟨(Option.some.inj hk).symm, rfl⟩
  | selreg =>
    cases hh : s.selhold with
    | false =>
      simp only [transactionSeq, hh] at hk hl
      obtain rfl := Nat.succ.inj hl
      exact .inl ⟨(Option.some.inj hk).symm, rfl⟩
    | true =>
      simp only [transactionSeq, hh] at hk hl
      obtain rfl := Nat.succ.inj hl
      exact .inr ⟨rfl, rfl, Nat.two_pos, (Option.some.inj hk).symm⟩
  | rdbytes =>
    obtain ⟨n, hn⟩ := Nat.exists_eq_add_of_le' (one_le_burstLength s.count)
    simp only [transactionSeq, hn] at hk hl
    rw [length_seqRdbytes _ n.succ_pos] at hl
    obtain rfl : k = n + 3 := by omega
    rw [seqRdbytes_stop] at hk
    exact .inl ⟨(Option.some.inj hk).symm, rfl⟩
  | ldcala | ldcalb | ldrawt | ldrawh | compt | comph => cases hk

/-- The last step frees the bus, unless SELREG is to hold it, and has no other success effect (R117, R142). -/
theorem stepEffect_last {i : Instr} {s u : State} {st : SeqStep} {k : Nat} (hk : (transactionSeq i s)[k]? = some st)
    (hl : k + 1 = (transactionSeq i s).length) (hu : 0 < k → u.held = true) (rxb : Byte) :
    stepEffect st rxb u = { u with held := decide (i = .selreg) && s.selhold } := by
  rcases transactionSeq_last hk hl with ⟨rfl, hheld⟩ | ⟨rfl, hheld, hpos, rfl⟩
  · rw [hheld]
    rfl
  · rw [hheld, decide_eq_true rfl, Bool.and_self, ← hu hpos]
    rfl

/-- A STOP that stands in a command's SEQ ends it with code 0, its results and the bus free (R117, R118). -/
theorem exec_stop {i : Instr} {s : State} {b : BeAnswer} (hi : i.isFsm = true) (hc : s.cur = i.opcode)
    (hp : s.phase = .wait) (hs : s.seq = specSeq i s) (hk : (specSeq i s)[s.k]? = some stopStep)
    (hb : s.beAnswer = some b) :
    exec i s = .next { s with
      code := .ok, phase := .idle, k := 0, held := false
      rxlen := if isReceive i then BitVec.ofNat 8 (bytesReceived i s) else s.rxlen
      beAnswer := none } := by
  rw [specSeq_eq_transactionSeq] at hs hk
  have hl : s.k + 1 = s.seq.length := by rw [hs, transactionSeq_stop_last hk rfl]
  rw [exec_pass (st := stopStep) hi hc hp (hs ▸ hk) hb trivial]
  exact congrArg Host.Outcome.next
    (advanceOrComplete_last (s := { s with held := false, beAnswer := none }) hs hl)

/-- Settles O15: step 4 of WRREG's table is its STOP. -/
theorem wrregCompletes : Obligations.WrregCompletes := by
  intro s b hp hc hs hk hb
  exact exec_stop rfl hc hp hs (by rw [hk]; rfl) hb

/-- Settles O16: with SELHOLD = 0 step 3 is the STOP; with SELHOLD = 1 step 2, the index byte, is the last. -/
theorem selregCompletes : Obligations.SelregCompletes := by
  intro s b hp hc hs hb
  refine ⟨fun hh hk => ?_, fun hh hk hm => ?_⟩
  · exact exec_stop rfl hc hp hs (by rw [hk, specSeq, hh]; rfl) hb
  · rw [specSeq_eq_transactionSeq] at hs
    have hst : s.seq[s.k]? = some (dataStep s.regidx) := by rw [hs, hk]; rfl
    have hl : s.k + 1 = s.seq.length := by rw [hs, hk, transactionSeq, hh]; rfl
    rw [exec_pass (i := .selreg) rfl hc hp hst hb (by simp [meets, dataStep, hm, condDtxAck])]
    exact congrArg Host.Outcome.next (advanceOrComplete_last (i := .selreg) (s := { s with beAnswer := none }) hs hl)

/-- Settles O17: step 3 of RDBYTE's table is its STOP. -/
theorem rdbyteCompletes : Obligations.RdbyteCompletes := by
  intro s b hp hc hs hk hb
  exact exec_stop rfl hc hp hs (by rw [hk]; rfl) hb

/-- Settles O18: the step after a burst's last byte is its STOP. -/
theorem rdbytesCompletes : Obligations.RdbytesCompletes := by
  intro s b hp hc hs hk hb
  have hstop : (specSeq .rdbytes s)[s.k]? = some stopStep := by
    obtain ⟨n, hn⟩ := Nat.exists_eq_add_of_le' (one_le_burstLength s.count)
    have hn' : burst s = n + 1 := hn
    rw [specSeq_eq_transactionSeq, transactionSeq, hk, hn, hn']
    exact seqRdbytes_stop s.dev n
  exact exec_stop rfl hc hp hs hstop hb

/-- Settles O19: BUSSTOP's one step is a STOP. -/
theorem busstopCompletes : Obligations.BusstopCompletes := by
  intro s b hp hc hs hk hb
  exact exec_stop rfl hc hp hs (by rw [hk]; rfl) hb

/-! ### Whole transactions that succeed -/

/-- Before the last step, the answers from the third on are a receive's bytes (R144, R146). -/
theorem lt_bytesReceived_iff {i : Instr} {s : State} {n : Nat} (hl : n + 1 = (transactionSeq i s).length) (m : Nat) :
    m < bytesReceived i s ↔ isReceive i = true ∧ m + 2 < n := by
  cases hi : isReceive i with
  | false => simp [bytesReceived_of_not_receive hi]
  | true =>
    obtain ⟨hq, hn⟩ := transactionSeq_eq_seqRdbytes hi s
    rw [hq, length_seqRdbytes _ hn] at hl
    have : m < bytesReceived i s ↔ m + 2 < n := by omega
    simpa

/-- The answer to the last step completes the transaction in progress there (R118). -/
theorem inProgress_complete {i : Instr} {s : State} {n : Nat} {st : SeqStep} {a : BeAnswer} (hi : i.isFsm = true)
    (hst : (transactionSeq i s)[n]? = some st) (hl : n + 1 = (transactionSeq i s).length) (hm : meets st a.cond)
    (rb : Vector Byte 32) (be : Option BeAnswer) :
    driveAnswers i [a] (inProgress i s n rb be) = .next { s with
      lastCmd := i.opcode, ovr := false, cur := i.opcode, seq := transactionSeq i s, phase := .idle, k := 0
      code := .ok
      held := decide (i = .selreg) && s.selhold
      rxlen := if isReceive i then BitVec.ofNat 8 (bytesReceived i s) else s.rxlen
      rxbuf := rb
      beAnswer := none
      busLog := ((transactionSeq i s).map SeqStep.action).reverse ++ s.busLog } := by
  rw [driveAnswers_pass hi rfl rfl hst (failure_eq_none.2 hm)]
  set u : State :=
    { inProgress i s n rb be with
      busLog := st.action :: (inProgress i s n rb be).busLog, phase := .wait, beAnswer := none }
  have heffect : stepEffect st a.rxb u = { u with held := decide (i = .selreg) && s.selhold } :=
    stepEffect_last hst hl (fun hn => if_neg (Nat.pos_iff_ne_zero.1 hn)) a.rxb
  have hlog : u.busLog = ((transactionSeq i s).map SeqStep.action).reverse ++ s.busLog := by
    have hlog : u.busLog = _ := cons_take_actions hst s.busLog
    rwa [hl, List.take_length] at hlog
  have hrx : (if isReceive i then BitVec.ofNat 8 (bytesReceived i s) else u.rxlen)
      = if isReceive i then BitVec.ofNat 8 (bytesReceived i s) else s.rxlen := by
    cases hr : isReceive i <;> simp [u, inProgress, hr]
  rw [heffect, advanceOrComplete_last (i := i) (s := { u with held := decide (i = .selreg) && s.selhold }) rfl hl,
    ← hlog, ← hrx]
  rfl

/-- Settles O20: the answers but the last leave the transaction in progress at its last step, and the last completes it. -/
theorem transactionsSucceedAsTheirTablesSay : Obligations.TransactionsSucceedAsTheirTablesSay := by
  intro i s as hb hi hall
  rw [specSeq_eq_transactionSeq] at hall ⊢
  have hlen := hall.length_eq
  have hpos := transactionSeq_length_pos hi.1 s
  obtain rfl | ⟨as, a, rfl⟩ := as.eq_nil_or_concat'
  · simp [hlen] at hpos
  · rw [List.length_append, List.length_singleton] at hlen
    obtain ⟨st, hst⟩ : ∃ st, (transactionSeq i s)[as.length]? = some st := ⟨_, List.getElem?_eq_getElem (by omega)⟩
    have hmeet : AnswersMeet i s (as ++ [a]) := answersMeet_of_forall₂ (by simpa [← hlen] using hall)
    obtain ⟨rb, be, hrun, hrb⟩ := runCommand_inProgress hb hi as (by omega) (answersMeet_left hmeet)
    refine ⟨rb, ?_, fun m h => ?_⟩
    · rw [runCommand_append hrun [a]]
      exact inProgress_complete hi.1 hst hlen.symm (hmeet _ st a hst List.getElem?_concat_length) rb be
    · simp only [hrb m h, ← lt_bytesReceived_iff hlen.symm]
      split
      · next hm => rw [List.getElem?_append_left ((lt_bytesReceived_iff hlen.symm m).1 hm).2]
      · rfl

/-! ### Arbitration loss and codes without a name -/

/-- Step k of command i expects only condition codes that R113 names, arbitration loss not among them, and fails with the
code of its row (R114, R115, R116). -/
def ExpectsNamed (i : Instr) (k : Nat) (st : SeqStep) : Prop :=
  ∃ e, st.check = .oneOf e (failureCode i k st.action) ∧ ∀ c ∈ e, c ≠ 0x38 ∧ c ∈ namedConditions

theorem expectsNamed_start (i : Instr) (k : Nat) : ExpectsNamed i k startStep := ⟨_, rfl, by decide⟩

theorem expectsNamed_addrR {i : Instr} (hi : isReceive i = true) (d : BitVec 7) : ExpectsNamed i 1 (addrRStep d) :=
  ⟨[condSlarAck], by simp [addrRStep, failureCode, hi], by decide⟩

theorem expectsNamed_addrW {i : Instr} (hi : isReceive i = false) (d : BitVec 7) : ExpectsNamed i 1 (addrWStep d) :=
  ⟨[condSlawAck], by simp [addrWStep, failureCode, hi], by decide⟩

theorem expectsNamed_data (i : Instr) {k : Nat} (hk : k ≠ 1) (x : Byte) : ExpectsNamed i k (dataStep x) :=
  ⟨[condDtxAck], by simp [dataStep, failureCode, hk], by decide⟩

theorem expectsNamed_recvAck (i : Instr) (k : Nat) : ExpectsNamed i k recvAckStep := ⟨_, rfl, by decide⟩

theorem expectsNamed_recvNack (i : Instr) (k : Nat) : ExpectsNamed i k recvNackStep := ⟨_, rfl, by decide⟩

/-- After the START and the address, a SEQ has data steps, RECV steps and a STOP only. -/
theorem transactionSeq_tail {i : Instr} (hi : i.isFsm = true) (hb : i ≠ .busstop) (s : State) :
    ∃ l, transactionSeq i s = startStep :: (if isReceive i then addrRStep s.dev else addrWStep s.dev) :: l
      ∧ ∀ st ∈ l, (∃ x, st = dataStep x) ∨ st = recvAckStep ∨ st = recvNackStep ∨ st = stopStep := by
  cases i with
  | wrreg => exact ⟨[dataStep s.regidx, dataStep s.wdata, stopStep], rfl, by simp⟩
  | selreg => exact ⟨dataStep s.regidx :: if s.selhold then [] else [stopStep], rfl, by cases s.selhold <;> simp⟩
  | rdbyte => exact ⟨[recvNackStep, stopStep], rfl, by simp⟩
  | rdbytes =>
    refine ⟨List.replicate (burstLength s.count - 1) recvAckStep ++ [recvNackStep, stopStep], by
      simp [transactionSeq, seqRdbytes, isReceive], ?_⟩
    simp +contextual [List.mem_replicate, or_imp]
  | busstop => exact absurd rfl hb
  | ldcala | ldcalb | ldrawt | ldrawh | compt | comph => cases hi

/-- Every step of a SEQ but the STOP expects named condition codes only. -/
theorem expectsNamed_transactionSeq {i : Instr} {s : State} {k : Nat} {st : SeqStep} (hi : i.isFsm = true)
    (hk : (transactionSeq i s)[k]? = some st) (hstop : st.action ≠ .stop) : ExpectsNamed i k st := by
  by_cases hb : i = .busstop
  · subst hb
    obtain rfl := List.mem_singleton.1 (List.mem_of_getElem? hk)
    exact absurd rfl hstop
  · obtain ⟨l, hs, hl⟩ := transactionSeq_tail hi hb s
    rw [hs] at hk
    match k with
    | 0 =>
      obtain rfl := Option.some.inj hk
      exact expectsNamed_start i 0
    | 1 =>
      obtain rfl := Option.some.inj hk
      cases hr : isReceive i with
      | false => exact expectsNamed_addrW hr s.dev
      | true => exact expectsNamed_addrR hr s.dev
    | j + 2 =>
      obtain ⟨x, rfl⟩ | rfl | rfl | rfl := hl st (List.mem_of_getElem? hk)
      · exact expectsNamed_data i (by omega) x
      · exact expectsNamed_recvAck i (j + 2)
      · exact expectsNamed_recvNack i (j + 2)
      · exact absurd rfl hstop

/-- Settles O22: such a code is in no step's E, and so every step fails with its row's code. -/
theorem arbitrationLossFailsEveryStep : Obligations.ArbitrationLossFailsEveryStep := by
  intro i s st b ht hp hst hstop hb hcond
  obtain ⟨e, hcheck, hnamed⟩ := expectsNamed_transactionSeq ht.unit (ht.seq ▸ hst) hstop
  have he : b.cond ∉ e := fun hmem => hcond.elim (hnamed _ hmem).1 fun hn => hn (hnamed _ hmem).2
  exact ⟨⟨e, hcheck, he⟩, exec_fail ht.unit ht.cur hp hst hb hcheck he⟩

/-! ### The hang -/

/-- In WAIT no move but an answer of the BE or a reset changes more of the block than OVR (R67, R258). -/
theorem waiting_of_move {m : Move} {s t : State} (hs : ControlInv s) (hp : s.phase = .wait) (hm : noAnswerNoReset m)
    (h : MoveEffect m s t) : ∃ o hh, t = { s with ovr := o, host := hh } := by
  have hb : s.busy = true := busy_eq_true.2 (.inl (by simp [hp]))
  cases h with
  | nothing | host | ignored => exact ⟨_, _, rfl⟩
  | store _ _ _ _ _ hi | accept _ _ _ _ _ _ _ hi _ | illegal _ _ _ _ _ hi _ => simp [hb] at hi
  | issue _ _ _ _ _ hq => simp [hp] at hq
  | complete _ _ _ _ _ he => exact absurd (hs.busyEng he).1 (by simp [hp])
  | fail | pass | reset => simp [noAnswerNoReset] at hm

/-- In WAIT so does every step, and the moves still planned are no answer of the BE and no reset either. -/
theorem waiting_of_step {s t : State} (hs : ControlInv s) (hp : s.phase = .wait)
    (hm : ∀ m ∈ s.moves, noAnswerNoReset m) (h : step s = .next t) :
    ∃ o ms hh, t = { s with ovr := o, moves := ms, host := hh } ∧ ∀ m ∈ ms, noAnswerNoReset m := by
  obtain ⟨m, ms, hmove, he⟩ := step_effect h
  have hall : noAnswerNoReset m ∧ ∀ m ∈ ms, noAnswerNoReset m := by
    rcases hmove with hmove | ⟨-, rfl, hmove⟩
    · exact List.forall_mem_cons.1 (hmove ▸ hm)
    · exact ⟨hmove, hm⟩
  obtain ⟨o, hh, ht⟩ := waiting_of_move (s := { s with moves := ms }) (controlInv_frame hs _ ms _) hp hall.1 he
  exact ⟨o, ms, hh, ht, hall.2⟩

/-- A run of n + 1 steps that does not stop has a first step, and n steps after it. -/
theorem exists_step_of_coreRun_succ {M : Host.Core} {n : Nat} {s t : M.State} (h : M.run (n + 1) s = .next t) :
    ∃ u, M.step s = .next u ∧ M.run n u = .next t := by
  unfold Host.Core.run at h
  split at h
  · next u hu => exact ⟨u, hu, h⟩
  · cases h
  · cases h

/-- Settles O53, by induction on the number of steps: each keeps the FSM waiting. -/
theorem unansweredActionHangsForEver : Obligations.UnansweredActionHangsForEver := by
  intro n
  induction n with
  | zero =>
    intro s t hs hp hm h
    obtain rfl := Host.Outcome.next.inj h
    exact ⟨rfl, busy_eq_true.2 (.inl (by simp [hp]))⟩
  | succ n ih =>
    intro s t hs hp hm h
    obtain ⟨u, hu, hrun⟩ := exists_step_of_coreRun_succ h
    obtain ⟨o, ms, hh, rfl, hms⟩ := waiting_of_step hs hp hm hu
    exact ih { s with ovr := o, moves := ms, host := hh } t (controlInv_frame hs o ms hh) hp hms hrun

end Sys2Proof.Proofs
end

section
/-! PROOFS. The I2C commands and the engine's fields, and what WRREG writes. -/

namespace Sys2Proof.Proofs

open Sys2Proof.Machine Sys2Proof.Safety Sys2Proof.Claims

/-! ### What the FSM reads is not among the engine's fields -/

section withEngine

variable (e : EngineFields) (s : State)

@[simp] theorem withEngine_phase : (withEngine e s).phase = s.phase := rfl
@[simp] theorem withEngine_k : (withEngine e s).k = s.k := rfl
@[simp] theorem withEngine_seq : (withEngine e s).seq = s.seq := rfl
@[simp] theorem withEngine_beAnswer : (withEngine e s).beAnswer = s.beAnswer := rfl
@[simp] theorem withEngine_busy : (withEngine e s).busy = s.busy := rfl
@[simp] theorem fsmRuns_withEngine (op : Byte) : fsmRuns op (withEngine e s) = fsmRuns op s := rfl

end withEngine

/-! ### Each part of an I2C command's step commutes with a change of the engine's fields -/

theorem acceptOf_withEngine {i : Instr} (hi : i.isFsm = true) (e : EngineFields) (s : State) :
    acceptOf i (withEngine e s) = withEngine e (acceptOf i s) := by
  cases i with
  | wrreg | selreg | rdbyte => rfl
  | rdbytes =>
    simp only [acceptOf, acceptRdbytes, apply_ite (withEngine e)]
    rfl
  | busstop =>
    simp only [acceptOf, acceptBusstop, apply_ite (withEngine e)]
    rfl
  | ldcala | ldcalb | ldrawt | ldrawh | compt | comph => cases hi

theorem resultsOf_withEngine (i : Instr) (e : EngineFields) (s : State) :
    resultsOf i (withEngine e s) = withEngine e (resultsOf i s) := by
  cases i <;> rfl

theorem stepEffect_withEngine (st : SeqStep) (rxb : Byte) (e : EngineFields) (s : State) :
    stepEffect st rxb (withEngine e s) = withEngine e (stepEffect st rxb s) := by
  obtain ⟨a, c⟩ := st
  cases a <;> rfl

theorem advanceOrComplete_withEngine (i : Instr) (e : EngineFields) (s : State) :
    advanceOrComplete (resultsOf i) (withEngine e s) = withEngine e (advanceOrComplete (resultsOf i) s) := by
  simp only [advanceOrComplete, resultsOf_withEngine, apply_ite (withEngine e)]
  rfl

theorem fsmIssue_withEngine (e : EngineFields) (s : State) :
    fsmIssue (withEngine e s) = mapNext (withEngine e) (fsmIssue s) := by
  simp only [fsmIssue, withEngine_seq, withEngine_k]
  cases s.seq[s.k]? with
  | none => rfl
  | some st => rfl

theorem fsmAnswer_withEngine (i : Instr) (e : EngineFields) (s : State) :
    fsmAnswer (resultsOf i) (withEngine e s) = mapNext (withEngine e) (fsmAnswer (resultsOf i) s) := by
  simp only [fsmAnswer, withEngine_beAnswer, withEngine_seq, withEngine_k]
  cases s.beAnswer with
  | none => rfl
  | some a =>
    cases s.seq[s.k]? with
    | none => rfl
    | some st =>
      cases hf : st.check.failure a.cond with
      | some f => simp only [hf]; rfl
      | none =>
        have hx := stepEffect_withEngine st a.rxb e { s with beAnswer := none }
        have hy := advanceOrComplete_withEngine i e (stepEffect st a.rxb { s with beAnswer := none })
        simp only [hf]
        exact congrArg Host.Outcome.next ((congrArg _ hx).trans hy)

theorem fsmStep_withEngine (i : Instr) (e : EngineFields) (s : State) :
    fsmStep (resultsOf i) (withEngine e s) = mapNext (withEngine e) (fsmStep (resultsOf i) s) := by
  cases hp : s.phase with
  | idle => simp only [fsmStep, withEngine_phase, hp]; rfl
  | issue => simp only [fsmStep, withEngine_phase, hp, fsmIssue_withEngine]
  | wait => simp only [fsmStep, withEngine_phase, hp, fsmAnswer_withEngine]

/-- Settles O33: whether a command is accepted, turned away or takes the FSM's next step does not depend on the engine's
fields, and each of the three leaves them as they are. -/
theorem i2cCommandsIgnoreTheEngine : Obligations.I2cCommandsIgnoreTheEngine := by
  intro i s e hi
  simp only [exec_fsm hi, fsmCommand, commandStep, withEngine_busy, fsmRuns_withEngine, acceptOf_withEngine hi,
    fsmStep_withEngine]
  cases s.busy with
  | false => rfl
  | true => cases fsmRuns i.opcode s <;> rfl

/-! ### WRREG's fields -/

/-- A step that receives no byte has an effect on HELD at most (R114, R115, R117). -/
theorem stepEffect_of_not_recv {st : SeqStep} (h : st.isRecv = false) (rxb : Byte) (s : State) :
    ∃ hd, stepEffect st rxb s = { s with held := hd } := by
  obtain ⟨hd, rb, he⟩ := stepEffect_eq st rxb s
  have hrb : (stepEffect st rxb s).rxbuf = s.rxbuf := by simp [stepEffect_rxbuf, h]
  rw [he] at hrb ⊢
  exact ⟨hd, by rw [show rb = s.rxbuf from hrb]⟩

/-- Settles O35: an acceptance writes LASTCMD, OVR and the FSM's state, no step of WRREG's SEQ receives a byte, and its
completion has no results. -/
theorem wrregWritesOnlyItsOwnFields : Obligations.WrregWritesOnlyItsOwnFields := by
  intro s t hs h
  rcases hs with hb | hi
  · rw [exec_idle hb] at h
    obtain rfl := Host.Outcome.next.inj h
    rfl
  · cases fsmEffect_of_exec rfl h with
    | accept ha =>
      cases ha with
      | wrreg => rfl
      | engine _ he => cases he
    | turnedAway | nothing | issue | fail => rfl
    | pass st rxb hst =>
      have hr : st.isRecv = false := isRecv_of_not_receive (i := .wrreg) rfl (hi.seq ▸ List.mem_of_getElem? hst)
      obtain ⟨hd, he⟩ := stepEffect_of_not_recv hr rxb { s with beAnswer := none }
      rw [he]
      rcases advanceOrComplete_cases (resultsOf .wrreg) { s with held := hd, beAnswer := none } with
        ⟨-, hx⟩ | ⟨-, hx⟩
      · rw [hx]; rfl
      · rw [hx]

end Sys2Proof.Proofs
end

section
/-! PROOFS. The engine's operand loads: what each load does past R171's checks, the numbers the received bytes stand for, and what a
failing check leaves. -/

namespace Sys2Proof.Proofs

open Sys2Proof.Machine Sys2Proof.Safety Sys2Proof.Claims

/-! ### Received bytes as numbers -/

/-- A field put together from two parts is the number its parts make (R8). -/
theorem append_eq_ofNat {m n : Nat} (x : BitVec m) (y : BitVec n) :
    x ++ y = BitVec.ofNat (m + n) (x.toNat * 2 ^ n + y.toNat) := by
  apply BitVec.eq_of_toNat_eq
  have hlt := (x ++ y).isLt
  rw [BitVec.toNat_append, ← Nat.shiftLeft_add_eq_or_of_lt y.isLt, Nat.shiftLeft_eq] at hlt ⊢
  rw [BitVec.toNat_ofNat, Nat.mod_eq_of_lt hlt]

theorem toNat_lowNibble (b : Byte) : (lowNibble b).toNat = b.toNat % 16 := by
  simp [lowNibble, BitVec.extractLsb'_toNat]

theorem toNat_highNibble (b : Byte) : (highNibble b).toNat = b.toNat / 16 := by
  have hb := b.isLt
  simp only [highNibble, BitVec.extractLsb'_toNat, Nat.shiftRight_eq_div_pow]
  omega

/-- The 12 bits of a high byte and the low nibble of the shared byte (R175). -/
theorem append_lowNibble_eq_ofNat (a b : Byte) :
    a ++ lowNibble b = BitVec.ofNat 12 (16 * a.toNat + b.toNat % 16) := by
  rw [append_eq_ofNat, toNat_lowNibble, Nat.mul_comm]
  rfl

/-- The 12 bits of a high byte and the high nibble of the shared byte (R175). -/
theorem append_highNibble_eq_ofNat (a b : Byte) :
    a ++ highNibble b = BitVec.ofNat 12 (16 * a.toNat + b.toNat / 16) := by
  rw [append_eq_ofNat, toNat_highNibble, Nat.mul_comm]
  rfl

theorem rawHumidity_eq_ofNat (s : State) :
    rawHumidity s = BitVec.ofNat 16 (s.rxbuf[0].toNat * 256 + s.rxbuf[1].toNat) :=
  append_eq_ofNat s.rxbuf[0] s.rxbuf[1]

theorem rawTemperature_eq_ofNat (s : State) :
    rawTemperature s
      = BitVec.ofNat 20 (s.rxbuf[0].toNat * 4096 + s.rxbuf[1].toNat * 16 + s.rxbuf[2].toNat / 16) := by
  have h0 := s.rxbuf[0].isLt
  have h1 := s.rxbuf[1].isLt
  have hraw : rawTemperature s = s.rxbuf[0] ++ s.rxbuf[1] ++ highNibble s.rxbuf[2] := rfl
  rw [hraw, append_eq_ofNat (s.rxbuf[0] ++ s.rxbuf[1]), append_eq_ofNat s.rxbuf[0], toNat_highNibble,
    BitVec.toNat_ofNat, Nat.mod_eq_of_lt (by omega)]
  congr 1
  omega

/-! ### The checks before a completion's results -/

theorem received_of_le {n : Nat} {s : State} (h : n ≤ s.rxlen.toNat) : received n s = true :=
  decide_eq_true h

theorem received_eq_false_of_lt {n : Nat} {s : State} (h : s.rxlen.toNat < n) : received n s = false :=
  decide_eq_false (Nat.not_le.2 h)

theorem calibrated_of_both {s : State} (ha : s.cala = true) (hb : s.calb = true) : calibrated s = true := by
  rw [calibrated, ha, hb, Bool.and_self]

theorem calibrated_eq_false_of_not {s : State} (h : ¬(s.cala = true ∧ s.calb = true)) : calibrated s = false := by
  rw [← Bool.not_eq_true, calibrated, Bool.and_eq_true]
  exact h

section

variable {i : Instr} {s : State} {b : Bool} {c : StatusCode} {rest : State → State} (hi : i.isFsm = false)
  (hp : s.engPending = true) (hl : s.lastCmd = i.opcode) (hc : completeOf i s = engCheck b c rest s)

include hi hp hl hc

/-- A pending command whose first check holds goes on to what stands behind it (R171). -/
theorem exec_of_check_true (hb : b = true) : exec i s = .next (rest s) := by
  rw [exec_engRunning hi hp hl, hc, engCheck_true hb]

/-- A pending command whose first check fails ends with its code (R171). -/
theorem exec_of_check_false (hb : b = false) : exec i s = .next (finishEng c s) := by
  rw [exec_engRunning hi hp hl, hc, engCheck_false hb]

end

/-- LDCALB past its length check (R171, R175). -/
theorem exec_ldcalb_of_received {s : State} (hp : s.engPending = true) (hl : s.lastCmd = 0x11) (hn : 8 ≤ s.rxlen.toNat) :
    exec .ldcalb s = .next (engCheck s.cala .errNoCal loadBlock2 s) :=
  exec_of_check_true rfl hp hl rfl (received_of_le hn)

/-- COMPH past its calibration check (R171, R196). -/
theorem exec_comph_of_calibrated {s : State} (hp : s.engPending = true) (hl : s.lastCmd = 0x15) (ha : s.cala = true)
    (hb : s.calb = true) : exec .comph s = .next (engCheck s.tfv .errTfine compensateHumidity s) :=
  exec_of_check_true rfl hp hl rfl (calibrated_of_both ha hb)

/-! ### The loads -/

/-- Settles O24: past both checks LDCALB loads block 2, whose two 12-bit fields are the numbers of a byte and a nibble. -/
theorem ldcalbDecodesBlockTwo : Obligations.LdcalbDecodesBlockTwo := by
  intro s hp hl hn ha
  rw [exec_ldcalb_of_received hp hl hn, engCheck_true ha, ← append_lowNibble_eq_ofNat, ← append_highNibble_eq_ofNat]
  rfl

/-- Settles O25: past its check LDRAWT loads the number of the three bytes. -/
theorem ldrawtAssemblesTwentyBits : Obligations.LdrawtAssemblesTwentyBits := by
  intro s hp hl hn
  rw [← rawTemperature_eq_ofNat]
  calc exec .ldrawt s = .next (loadRawt s) := exec_of_check_true rfl hp hl rfl (received_of_le hn)
    _ = _ := rfl

/-- Settles O23: past its check LDCALA loads block 1, byte pair by byte pair. -/
theorem ldcalaDecodesBlockOne : Obligations.LdcalaDecodesBlockOne := by
  intro s hp hl hn
  calc exec .ldcala s = .next (loadBlock1 s) := exec_of_check_true rfl hp hl rfl (received_of_le hn)
    _ = _ := rfl

/-- Settles O26: past its check LDRAWH loads the number of the two bytes, and TFV is not among what it writes. -/
theorem ldrawhAssemblesSixteenBits : Obligations.LdrawhAssemblesSixteenBits := by
  intro s hp hl hn
  rw [← rawHumidity_eq_ofNat]
  calc exec .ldrawh s = .next (loadRawh s) := exec_of_check_true rfl hp hl rfl (received_of_le hn)
    _ = _ := rfl

/-- Settles O29: a first check that fails ends the command; where it holds, the second one decides (LDCALB's CALA, COMPH's TFV). -/
theorem engineChecksInOrder : Obligations.EngineChecksInOrder := by
  intro s hp
  refine ⟨?ldcala, ?ldcalb, ?ldrawt, ?ldrawh, ?ldcalbNoCal, ?compt, ?comph, ?comphNoFine⟩
  case ldcala | ldcalb | ldrawt | ldrawh =>
    intro hl hn
    exact exec_of_check_false rfl hp hl rfl (received_eq_false_of_lt hn)
  case compt | comph =>
    intro hl hcal
    exact exec_of_check_false rfl hp hl rfl (calibrated_eq_false_of_not hcal)
  case ldcalbNoCal =>
    intro hl hn ha
    rw [exec_ldcalb_of_received hp hl hn, engCheck_false ha]
    rfl
  case comphNoFine =>
    intro hl ha hb hv
    rw [exec_comph_of_calibrated hp hl ha hb, engCheck_false hv]
    rfl

end Sys2Proof.Proofs
end

section
/-! PROOFS. The two compensations: the model's s32 formulas are the native ones, what a clamp gives, and what COMPT and COMPH do past
their checks. -/

namespace Sys2Proof.Proofs

open Sys2Proof.Machine Sys2Proof.Safety Sys2Proof.Claims

/-! ### The formulas before the clamps (R191, R196) -/

theorem thermalFine_eq_specFine (rawt : BitVec 20) (cal : Calibration) : thermalFine rawt cal = specFine rawt cal := by
  unfold thermalFine specFine
  simp only [tempVar1, tempVar2, tempD, add32_eq, sub32_eq, mul32_eq, shl32_eq, asr32_eq, zext, sext]

/-- The shift by 8 is the floor of the quotient by 256 (R10). -/
theorem toInt_centiDegrees (fine : Word) : (centiDegrees fine).toInt = specCenti fine := by
  unfold centiDegrees
  rw [toInt_asr32, add32_eq, mul32_eq]
  rfl

theorem humPreClamp_eq_specHumidity (rawh : BitVec 16) (tfine : Word) (cal : Calibration) :
    humPreClamp rawh tfine cal = specHumidity rawh tfine cal := by
  unfold humPreClamp specHumidity
  simp only [humX, humY, humCorrect, add32_eq, sub32_eq, mul32_eq, shl32_eq, asr32_eq, zext, sext]

/-! ### The clamps -/

/-- A clamp between bounds that are s32 numbers, as a number (R10). -/
theorem toInt_clamp32 {lo hi : Int} (v : Word) (h : lo ≤ hi) (hlo : -2147483648 ≤ lo) (hhi : hi ≤ 2147483647) :
    (clamp32 lo hi v).toInt = max lo (min hi v.toInt) := by
  unfold clamp32
  split
  · rw [toInt_wrap32 hlo (by omega)]
    omega
  · split
    · rw [toInt_wrap32 (by omega) hhi]
      omega
    · omega

theorem compensatedTemp_eq_ofInt (fine : Word) :
    compensatedTemp fine = BitVec.ofInt 32 (max (-4000) (min 8500 (specCenti fine))) := by
  have hclamp : (compensatedTemp fine).toInt = max (-4000) (min 8500 (specCenti fine)) := by
    unfold compensatedTemp
    rw [toInt_clamp32 (lo := tempLo) (hi := tempHi) _ (by decide) (by decide) (by decide), toInt_centiDegrees]
    rfl
  rw [← hclamp, BitVec.ofInt_toInt]

/-- The shift by 12 acts on the clamped number (R196). -/
theorem compensatedHum_eq_ofInt (v : Word) :
    compensatedHum v = BitVec.ofInt 32 (max 0 (min 419430400 v.toInt) / 4096) := by
  unfold compensatedHum
  rw [asr32, toInt_clamp32 (lo := humLo) (hi := humHi) v (by decide) (by decide) (by decide)]
  rfl

/-! ### The two commands past their checks -/

/-- COMPT past its check (R171, R191). -/
theorem exec_compt_of_calibrated {s : State} (hp : s.engPending = true) (hl : s.lastCmd = 0x14) (ha : s.cala = true)
    (hb : s.calb = true) : exec .compt s = .next (compensateTemperature s) :=
  exec_of_check_true rfl hp hl rfl (calibrated_of_both ha hb)

/-- COMPH past both checks (R171, R196). -/
theorem exec_comph_of_fine {s : State} (hp : s.engPending = true) (hl : s.lastCmd = 0x15) (ha : s.cala = true)
    (hb : s.calb = true) (hv : s.tfv = true) : exec .comph s = .next (compensateHumidity s) := by
  rw [exec_comph_of_calibrated hp hl ha hb, engCheck_true hv]

/-- Settles O27: the model's thermal fine value is the native one, and the clamp and its flags compare the same centidegrees. -/
theorem comptComputesTheTemperature : Obligations.ComptComputesTheTemperature := by
  intro s hp hl ha hb
  rw [exec_compt_of_calibrated hp hl ha hb, ← thermalFine_eq_specFine, ← compensatedTemp_eq_ofInt, ← toInt_centiDegrees]
  simp only [compensateTemperature, clampedLow, clampedHigh]
  rfl

/-- Settles O28: the model's value before the clamp is the native one, and the clamp, the shift and the flags are taken of it. -/
theorem comphComputesTheHumidity : Obligations.ComphComputesTheHumidity := by
  intro s hp hl ha hb hv
  rw [exec_comph_of_fine hp hl ha hb hv, ← humPreClamp_eq_specHumidity, ← compensatedHum_eq_ofInt]
  simp only [compensateHumidity, clampedLow, clampedHigh]
  rfl

/-! ### What the results depend on, and their ranges -/

/-- The thermal fine value depends on RAWT and CAL_T1 to CAL_T3 alone (R199). -/
theorem thermalFine_congr {r r' : BitVec 20} {c c' : Calibration} (hr : r = r') (h1 : c.t1 = c'.t1) (h2 : c.t2 = c'.t2)
    (h3 : c.t3 = c'.t3) : thermalFine r c = thermalFine r' c' := by
  unfold thermalFine
  rw [hr, h1, h2, h3]

/-- The humidity before the clamp depends on RAWH, TFINE and CAL_H1 to CAL_H6 alone (R199). -/
theorem humPreClamp_congr {r r' : BitVec 16} {f f' : Word} {c c' : Calibration} (hr : r = r') (hf : f = f')
    (h1 : c.h1 = c'.h1) (h2 : c.h2 = c'.h2) (h3 : c.h3 = c'.h3) (h4 : c.h4 = c'.h4) (h5 : c.h5 = c'.h5)
    (h6 : c.h6 = c'.h6) : humPreClamp r f c = humPreClamp r' f' c' := by
  unfold humPreClamp
  rw [hr, hf, h1, h2, h3, h4, h5, h6]

/-- Settles O30: every result is taken of the thermal fine value, or of the humidity before the clamp, which the two runs share. -/
theorem compensationIsDeterministic : Obligations.CompensationIsDeterministic := by
  constructor
  · intro s s' t t' hp hp' hl hl' ha hb ha' hb' hr h1 h2 h3 h h'
    obtain rfl := Host.Outcome.next.inj ((exec_compt_of_calibrated hp hl ha hb).symm.trans h)
    obtain rfl := Host.Outcome.next.inj ((exec_compt_of_calibrated hp' hl' ha' hb').symm.trans h')
    simp [thermalFine_congr hr h1 h2 h3]
  · intro s s' t t' hp hp' hl hl' ha hb ha' hb' hv hv' hr hf h1 h2 h3 h4 h5 h6 h h'
    obtain rfl := Host.Outcome.next.inj ((exec_comph_of_fine hp hl ha hb hv).symm.trans h)
    obtain rfl := Host.Outcome.next.inj ((exec_comph_of_fine hp' hl' ha' hb' hv').symm.trans h')
    simp [humPreClamp_congr hr hf h1 h2 h3 h4 h5 h6]

/-- Settles O31: both commands write a clamp's result, and a clamp keeps its range whatever it is given. -/
theorem compensatedValuesStayInRange : Obligations.CompensatedValuesStayInRange := by
  intro s t hp
  constructor
  · intro hl ha hb h
    obtain rfl := Host.Outcome.next.inj ((exec_compt_of_calibrated hp hl ha hb).symm.trans h)
    exact compensatedTemp_range _
  · intro hl ha hb hv h
    obtain rfl := Host.Outcome.next.inj ((exec_comph_of_fine hp hl ha hb hv).symm.trans h)
    exact compensatedHum_range _

end Sys2Proof.Proofs
end

section
/-! PROOFS. The host's oversampling codes and its delay table (R225, R227, R228). -/

namespace Sys2Proof.Proofs

open Sys2Proof.Machine Sys2Proof.Safety Sys2Proof.Claims

/-- "normalized to ×1 (a defensive default, not an error)" (R225). -/
theorem normaliseOversampling_of_not_mem {o : Nat} (ho : o ∉ [0, 1, 2, 4, 8, 16]) : normaliseOversampling o = 1 :=
  if_neg ho

/-- Outside the six values the field is that of ×1 (R225). -/
theorem encodeOversampling_of_not_mem {o : Nat} (ho : o ∉ [0, 1, 2, 4, 8, 16]) : encodeOversampling o = 0b001 := by
  simp only [encodeOversampling, normaliseOversampling_of_not_mem ho]

/-- R225's table as an ordered chain, for every requested value. -/
theorem encodeOversampling_eq (o : Nat) : encodeOversampling o =
    if o = 0 then 0b000 else if o = 2 then 0b010 else if o = 4 then 0b011 else if o = 8 then 0b100
    else if o = 16 then 0b101 else 0b001 := by
  by_cases ho : o ∈ [0, 1, 2, 4, 8, 16]
  · simp only [List.mem_cons, List.not_mem_nil, or_false] at ho
    rcases ho with rfl | rfl | rfl | rfl | rfl | rfl <;> rfl
  · rw [encodeOversampling_of_not_mem ho]
    simp only [List.mem_cons, List.not_mem_nil, or_false, not_or] at ho
    simp [ho]

/-- Only skip has the field 0: "A value normalised to ×1 counts as active" (R228). -/
theorem encodeOversampling_eq_zero_iff (o : Nat) : encodeOversampling o = 0 ↔ o = 0 := by
  rw [encodeOversampling_eq]
  split_ifs <;> simp [*]

/-- The channels whose field is not 0 are those requested with a value other than skip (R227). -/
theorem activeChannels_encodeOversampling (oT oP oH : Nat) :
    activeChannels (encodeOversampling oT) (encodeOversampling oP) (encodeOversampling oH) =
      ([oT, oP, oH].filter (fun o => o != 0)).length := by
  simp only [activeChannels, ne_eq, encodeOversampling_eq_zero_iff, ← List.countP_eq_length_filter, List.countP_cons,
    List.countP_nil, bne_iff_ne]
  omega

/-- Settles O59: the codes are R225's chain, and the delay table is read at the number of channels requested with a value other than skip. -/
theorem oversamplingAndDelay : Obligations.OversamplingAndDelay := by
  refine ⟨encodeOversampling_eq, fun oT oP oH => ?_⟩
  exact congrArg measurementDelay (activeChannels_encodeOversampling oT oP oH)

end Sys2Proof.Proofs
end

section
/-! PROOFS. Reset. -/

namespace Sys2Proof.Proofs

open Sys2Proof.Machine Sys2Proof.Claims

/-- A planned reset leaves the block as `resetBlock` does, whatever unit it was busy with (R280, R281). -/
theorem step_reset {s : State} {rest : List Move} (h : s.moves = .reset :: rest) :
    step s = .next (resetBlock { s with moves := rest }) :=
  step_of_moves h

/-- Settles O46: the step is `resetBlock`, and the new RXBUF is the next reset's free draw. -/
theorem resetAbandonsEverything : Obligations.ResetAbandonsEverything := fun s _ h =>
  ⟨drawRxbuf (s.resets + 1), step_reset h, fun _ hi => getElem_drawRxbuf (s.resets + 1) hi⟩

end Sys2Proof.Proofs
end
